-- ==== Sys2Proof/Word.lean ====
section
/-! DEFINITION. The word types of the block. Every value is unsigned (00_scope.md R9). -/

namespace Sys2Proof

/-- `u8`: one byte of a frame, a FIFO or the response buffer. -/
abbrev Byte := BitVec 8

/-- `u16`: the checksum and its accumulator. -/
abbrev Half := BitVec 16

/-- The contents of one host register (20_memory.md R47). -/
abbrev Word := BitVec 32

/-- The 12-bit number of a host register (20_memory.md R47). -/
abbrev RegNum := BitVec 12

end Sys2Proof
end

