-- ==== Sys2Proof/Syntax.lean ====
section
/-! DEFINITION. The instructions of spec/opcode_table.json, one constructor for each row, and the host-program lines of
30_encoding.md R79 and R80. -/

namespace Sys2Proof

/-- The ten command kinds of 30_encoding.md R68. -/
inductive Kind where
  | redOn | yellowOn | greenOn
  | redSlow | yellowSlow | greenSlow
  | redBurst | yellowBurst | greenBurst
  | lightOff
deriving DecidableEq, Repr, Inhabited

/-- The instructions. The first fourteen are host requests (30_encoding.md R76): the sequencer runs one in DISPATCH. The last
eleven are the frames (30_encoding.md R77): the sequencer runs one in ENCODE. -/
inductive Instr where
  | init
  | deinit
  | sendCommandRedOn
  | sendCommandYellowOn
  | sendCommandGreenOn
  | sendCommandRedSlow
  | sendCommandYellowSlow
  | sendCommandGreenSlow
  | sendCommandRedBurst
  | sendCommandYellowBurst
  | sendCommandGreenBurst
  | sendCommandLightOff
  | queryDevices
  /-- The length is ARG read as an unsigned number (30_encoding.md R72). -/
  | sendRaw (len : Nat)
  | commandFrameRedOn
  | commandFrameYellowOn
  | commandFrameGreenOn
  | commandFrameRedSlow
  | commandFrameYellowSlow
  | commandFrameGreenSlow
  | commandFrameRedBurst
  | commandFrameYellowBurst
  | commandFrameGreenBurst
  | commandFrameLightOff
  | queryFrame
deriving DecidableEq, Repr, Inhabited

/-- Where a jump of a host program goes: to a marked line, or back by a number of primitives (the local loop of `wait`). -/
inductive HostTarget where
  | label (l : Nat)
  | back (k : Nat)
deriving DecidableEq, Repr, Inhabited

/-- What the lines of 30_encoding.md R79 and R80 expand to: the two host primitives of 20_memory.md R47, and the host's own
control over its last read value `s`. -/
inductive HostPrim where
  | write (n : RegNum) (v : Word)
  | read (n : RegNum)
  | branchIf (bit : Nat) (val : Bool) (t : HostTarget)
  | goto (t : HostTarget)
  | mark (l : Nat)
  | halt
deriving DecidableEq, Repr, Inhabited

/-- One line of a host program (30_encoding.md R79 and R80). Labels are numbered; comments are dropped. -/
inductive HostOp where
  | init
  | deinit
  | sendCommand (k : Kind)
  | queryDevices
  | sendRaw (n : Nat)
  | cmd (v : Word)
  | cfg (port txPin rxPin baud : Word)
  | settle (ms : Word)
  | wait
  | bfail (l : Nat)
  | bok (l : Nat)
  | jmp (l : Nat)
  | halt
  | label (l : Nat)
deriving DecidableEq, Repr, Inhabited

end Sys2Proof
end

