-- ==== Sys2Proof/Config.lean ====
section
/-! DEFINITION. What an implementation fixes (the OPEN parameters), what the environment draws, which agent steps, and the free
values. -/

namespace Sys2Proof

/-- FRAME_LEN, CRC_SPAN, RESP_CAP and the fixed timeouts (00_scope.md R7). -/
def respCap : Nat := 256

/-- READ_TIMEOUT_MS (00_scope.md R7). -/
def readTimeoutMs : Nat := 1000

/-- FRAME_LEN (00_scope.md R7). -/
def frameLen : Nat := 10

/-- The OPEN parameters of 00_scope.md R7, and HOST_BASE (20_memory.md R58), which no rule reads. They are plain data so that
the model takes them as an argument; no step writes them (log 6). -/
structure Params where
  ticksPerMs : Nat
  drainTimeoutMs : Nat
  rxDepth : Nat
  txDepth : Nat
  hostBase : Nat
deriving DecidableEq, Repr, Inhabited

/-- The constraints on the OPEN parameters (00_scope.md R7; 92_eei_decisions.md D12, D14, D15). -/
def Params.legal (p : Params) : Bool :=
  decide (1 ≤ p.ticksPerMs) &&
  decide (p.ticksPerMs * max readTimeoutMs (max 65535 p.drainTimeoutMs) < 2 ^ 32) &&
  decide (respCap + 1 ≤ p.rxDepth) &&
  decide (frameLen ≤ p.txDepth)

/-- The driver outcome of `open` (42_transport.md R110). -/
inductive DriverOutcome where
  | drvOk | drvFail
deriving DecidableEq, Repr, Inhabited

/-- The outcome of writing a 10-byte frame (42_transport.md R111): OK(n) or ERR(j) with 0 ≤ n, j ≤ 10. -/
inductive WriteOutcome where
  | ok (n : Fin 11)
  | err (j : Fin 11)
deriving DecidableEq, Repr, Inhabited

/-- The outcome of a read (42_transport.md R113). -/
inductive ReadOutcome where
  | rdOk | rdErr
deriving DecidableEq, Repr, Inhabited

/-- What the environment draws for one sequencer step (00_scope.md R12). A step uses at most one of the three. -/
structure Draw where
  drv : DriverOutcome
  wr : WriteOutcome
  rd : ReadOutcome
deriving DecidableEq, Repr, Inhabited

/-- One step of one agent (00_scope.md R13), with the environment's draw for it. -/
inductive AgentStep where
  /-- S, the sequencer. -/
  | seq (d : Draw)
  /-- LT, the line transmitter. -/
  | lineTx
  /-- RD, the receive side, with the byte it draws. -/
  | receive (b : Byte)
  /-- TK, the tick source. -/
  | tick
  /-- H, the host: HostWrite (20_memory.md R47). -/
  | hostWrite (n : RegNum) (v : Word)
  /-- H, the host: HostRead (20_memory.md R47). -/
  | hostRead (n : RegNum)
  /-- H, the host: the next primitive of the program it runs (30_encoding.md R80). -/
  | hostProgram
  /-- Power-on or the reset input (70_reset_and_hazards.md R166). -/
  | resetInput
deriving DecidableEq, Repr, Inhabited

/-- Free value: who steps, and with what draw, once the listed steps of a state are used up (log 1). -/
opaque Config.freeAgentStep : Nat → AgentStep

/-- Free value: what a host read of RESP_BUF[i] returns when i holds no value, by step number and index (log 3). -/
opaque Config.freeRespWord : Nat → Nat → Word

/-- Free value behind TICKS_PER_MS (log 6). -/
opaque Config.rawTicks : Nat

/-- Free value behind DRAIN_TIMEOUT_MS (log 6). -/
opaque Config.rawDrain : Nat

/-- Free value behind RX_DEPTH (log 6). -/
opaque Config.rawRxDepth : Nat

/-- Free value behind TX_DEPTH (log 6). -/
opaque Config.rawTxDepth : Nat

/-- Free value: HOST_BASE (log 6). -/
opaque Config.rawHostBase : Nat

/-- The parameters made from five numbers, each brought into its constraint. Every legal parameter set is one of these. -/
def Config.paramsOf (ticks drain rx tx base : Nat) : Params :=
  let t := 1 + ticks % 65537
  { ticksPerMs := t
    drainTimeoutMs := drain % ((2 ^ 32 - 1) / t + 1)
    rxDepth := respCap + 1 + rx
    txDepth := frameLen + tx
    hostBase := base }

/-- The parameters of the block that is reset: any legal ones. -/
def Config.params : Params :=
  Config.paramsOf Config.rawTicks Config.rawDrain Config.rawRxDepth Config.rawTxDepth Config.rawHostBase

end Sys2Proof
end

