-- ==== Sys2Proof/Machine/Crc16.lean ====
section
/-! DEFINITION. The CRC16 generator (40_crc16.md): the checksum as a function of a byte sequence, and the bit-serial circuit that
computes it in 48 steps. -/

namespace Sys2Proof.Machine

/-- CRC_BIT_STEP (40_crc16.md R85). -/
def crcBitStep (acc : Half) : Half :=
  if acc.getLsbD 0 then (acc >>> 1) ^^^ 0xA001#16 else acc >>> 1

/-- `n` shift iterations in a row. -/
def crcBitSteps : Nat → Half → Half
  | 0, acc => acc
  | n + 1, acc => crcBitSteps n (crcBitStep acc)

/-- CRC_BYTE (40_crc16.md R86): the byte goes into bits 7 to 0, then eight iterations. -/
def crcByte (acc : Half) (b : Byte) : Half :=
  crcBitSteps 8 (acc ^^^ b.setWidth 16)

/-- The accumulator after folding in a byte sequence, first byte first. -/
def crcFold (acc : Half) (data : List Byte) : Half :=
  data.foldl crcByte acc

/-- crc16 (40_crc16.md R87): seed 0xFFFF, no final XOR. -/
def crc16 (data : List Byte) : Half :=
  crcFold 0xFFFF#16 data

/-- The registers CRC_ACC, CRC_IDX and CRC_BIT (10_state.md R26). -/
structure CrcGen where
  acc : Half
  idx : Nat
  bit : Nat
deriving DecidableEq, Repr, Inhabited

/-- The seeding at the start of every frame (40_crc16.md R88, `seed`); also the registers' reset values (10_state.md R26). -/
def crcSeed : CrcGen := { acc := 0xFFFF#16, idx := 0, bit := 0 }

/-- One bit step of the serial generator on the payload `p` (40_crc16.md R88, `per byte` and `per bit`). It rests once CRC_IDX
is 6. -/
def crcClock (p : List Byte) (g : CrcGen) : CrcGen :=
  if g.idx < 6 then
    let loaded := if g.bit = 0 then g.acc ^^^ (p.getD g.idx 0).setWidth 16 else g.acc
    let shifted := crcBitStep loaded
    if g.bit + 1 = 8 then { acc := shifted, idx := g.idx + 1, bit := 0 }
    else { acc := shifted, idx := g.idx, bit := g.bit + 1 }
  else g

/-- `n` bit steps of the serial generator. -/
def crcClocks (p : List Byte) : Nat → CrcGen → CrcGen
  | 0, g => g
  | n + 1, g => crcClocks p n (crcClock p g)

/-- The 48 bit steps of one frame, from the seed (40_crc16.md R88). -/
def crcSerial (p : List Byte) : CrcGen :=
  crcClocks p 48 crcSeed

end Sys2Proof.Machine
end

