-- ==== Sys2Proof/WellFormed.lean ====
section
/-! DEFINITION. Which instructions and which host programs have an encoding. -/

namespace Sys2Proof

/-- An instruction that has an encoding: SEND_RAW's length is one byte (30_encoding.md R71, "buffer length 0..255"). -/
def Instr.wellFormed : Instr → Bool
  | .init => true
  | .deinit => true
  | .sendCommandRedOn => true
  | .sendCommandYellowOn => true
  | .sendCommandGreenOn => true
  | .sendCommandRedSlow => true
  | .sendCommandYellowSlow => true
  | .sendCommandGreenSlow => true
  | .sendCommandRedBurst => true
  | .sendCommandYellowBurst => true
  | .sendCommandGreenBurst => true
  | .sendCommandLightOff => true
  | .queryDevices => true
  | .sendRaw len => decide (len < 256)
  | .commandFrameRedOn => true
  | .commandFrameYellowOn => true
  | .commandFrameGreenOn => true
  | .commandFrameRedSlow => true
  | .commandFrameYellowSlow => true
  | .commandFrameGreenSlow => true
  | .commandFrameRedBurst => true
  | .commandFrameYellowBurst => true
  | .commandFrameGreenBurst => true
  | .commandFrameLightOff => true
  | .queryFrame => true

/-- The label a host-program line jumps to, if it jumps to one. -/
def HostOp.target? : HostOp → Option Nat
  | .bfail l => some l
  | .bok l => some l
  | .jmp l => some l
  | _ => none

/-- A line whose operand its expansion can hold: `send_raw N` has 0 ≤ N ≤ 255 (30_encoding.md R79). -/
def HostOp.operandsFit : HostOp → Bool
  | .sendRaw n => decide (n < 256)
  | _ => true

/-- A host program whose operands fit and whose jumps go to a label that stands on exactly one line (30_encoding.md R80). -/
def hostProgramWellFormed (p : List HostOp) : Bool :=
  p.all HostOp.operandsFit &&
  p.all fun o =>
    match o.target? with
    | some l => p.count (.label l) == 1
    | none => true

end Sys2Proof
end

