-- ==== Sys2Proof/Decode.lean ====
section
/-! DEFINITION. The encodings (30_encoding.md) and the frame codec (41_frame_codec.md): the decoder of request words, the decoder of
frames, and after them the encoder. -/

namespace Sys2Proof

open Machine

/-- The ten kinds, in the order of 30_encoding.md R68. -/
def allKinds : List Kind :=
  [.redOn, .yellowOn, .greenOn, .redSlow, .yellowSlow, .greenSlow, .redBurst, .yellowBurst, .greenBurst, .lightOff]

/-- The opcode of a kind (30_encoding.md R68). -/
def kindCode : Kind → Byte
  | .redOn => 0x11#8
  | .yellowOn => 0x12#8
  | .greenOn => 0x13#8
  | .redSlow => 0x21#8
  | .yellowSlow => 0x22#8
  | .greenSlow => 0x23#8
  | .redBurst => 0x31#8
  | .yellowBurst => 0x32#8
  | .greenBurst => 0x33#8
  | .lightOff => 0x60#8

/-- The kind a byte stands for: ten of the 256 values, the others are reserved (30_encoding.md R73). -/
def kindOf (b : Byte) : Option Kind :=
  allKinds.find? fun k => kindCode k == b

/-- SEND_COMMAND of a kind (30_encoding.md R76). -/
def sendCommandOf : Kind → Instr
  | .redOn => .sendCommandRedOn
  | .yellowOn => .sendCommandYellowOn
  | .greenOn => .sendCommandGreenOn
  | .redSlow => .sendCommandRedSlow
  | .yellowSlow => .sendCommandYellowSlow
  | .greenSlow => .sendCommandGreenSlow
  | .redBurst => .sendCommandRedBurst
  | .yellowBurst => .sendCommandYellowBurst
  | .greenBurst => .sendCommandGreenBurst
  | .lightOff => .sendCommandLightOff

/-- The command frame of a kind (41_frame_codec.md R98). -/
def commandFrameOf : Kind → Instr
  | .redOn => .commandFrameRedOn
  | .yellowOn => .commandFrameYellowOn
  | .greenOn => .commandFrameGreenOn
  | .redSlow => .commandFrameRedSlow
  | .yellowSlow => .commandFrameYellowSlow
  | .greenSlow => .commandFrameGreenSlow
  | .redBurst => .commandFrameRedBurst
  | .yellowBurst => .commandFrameYellowBurst
  | .greenBurst => .commandFrameGreenBurst
  | .lightOff => .commandFrameLightOff

/-! ### Frames -/

/-- KIND_PAYLOAD (41_frame_codec.md R95). -/
def kindPayload (k : Kind) : Vector Byte 6 :=
  #v[0x01#8, 0x06#8, 0x00#8, 0xC2#8, 0x00#8, kindCode k]

/-- QUERY_PAYLOAD (41_frame_codec.md R96). -/
def queryPayload : Vector Byte 6 :=
  #v[0xFF#8, 0x03#8, 0x00#8, 0x3F#8, 0x00#8, 0x00#8]

/-- The low byte of a checksum, which is sent first (20_memory.md R50). -/
def lowByte (c : Half) : Byte := c.extractLsb' 0 8

/-- The high byte of a checksum. -/
def highByte (c : Half) : Byte := c.extractLsb' 8 8

/-- ASSEMBLE (41_frame_codec.md R97). -/
def assemble (p : Vector Byte 6) : Vector Byte 10 :=
  let c := crc16 p.toList
  #v[p[0], p[1], p[2], p[3], p[4], p[5], lowByte c, highByte c, 0x00#8, 0x00#8]

/-- ENCODE_COMMAND (41_frame_codec.md R98). -/
def encodeCommand (k : Kind) : Vector Byte 10 := assemble (kindPayload k)

/-- ENCODE_QUERY (41_frame_codec.md R99). -/
def encodeQuery : Vector Byte 10 := assemble queryPayload

/-- CRC_OF (41_frame_codec.md R106): bytes 7 and 6, low byte first. -/
def crcOf (f : List Byte) : Half :=
  ((f.getD 7 0).setWidth 16 <<< 8) ||| (f.getD 6 0).setWidth 16

/-- Why a byte sequence is no frame (41_frame_codec.md R101). -/
inductive FrameError where
  | length | suffix | crc | kind | leading
deriving DecidableEq, Repr, Inhabited

/-- The verdict of the frame checker (41_frame_codec.md R101). -/
inductive Verdict where
  | command (k : Kind)
  | query
  | invalid (r : FrameError)
deriving DecidableEq, Repr, Inhabited

/-- FRAME_CHECK (41_frame_codec.md R101): the first test that applies gives the verdict. `FrameError.leading` is
INVALID(PREFIX). -/
def frameCheck (f : List Byte) : Verdict :=
  if f.length ≠ 10 then .invalid .length
  else if f.getD 8 0 ≠ 0x00#8 ∨ f.getD 9 0 ≠ 0x00#8 then .invalid .suffix
  else if crcOf f ≠ crc16 (f.take 6) then .invalid .crc
  else if f.take 6 = queryPayload.toList then .query
  else if f.take 5 = [0x01#8, 0x06#8, 0x00#8, 0xC2#8, 0x00#8] then
    match kindOf (f.getD 5 0) with
    | some k => .command k
    | none => .invalid .kind
  else .invalid .leading

/-! ### The decoder -/

/-- An instruction's words: a value written to CMD, or the bytes of a frame in transmission order (30_encoding.md R64). -/
inductive Code where
  | request (w : Word)
  | frame (bytes : List Byte)
deriving DecidableEq, Repr, Inhabited

/-- Why a code is no instruction: the encoding reasons of 43_sequencer.md R128, and the verdicts of the frame checker. -/
inductive DecodeError where
  | reservedOp
  | nonzeroArg
  | reservedKind
  | badFrame (r : FrameError)
deriving DecidableEq, Repr, Inhabited

/-- The OP field of a request word (30_encoding.md R70). -/
def requestOp (w : Word) : BitVec 4 := w.extractLsb' 8 4

/-- The ARG field of a request word (30_encoding.md R70). -/
def requestArg (w : Word) : Byte := w.extractLsb' 0 8

/-- The request that OP and ARG select (30_encoding.md R71 to R76; 43_sequencer.md R127). A SEND_RAW of any length has a
request; what it does is 43_sequencer.md R133. -/
def decodeOpArg (op : BitVec 4) (arg : Byte) : Except DecodeError Instr :=
  match op.toNat with
  | 1 => if arg = 0x00#8 then .ok .init else .error .nonzeroArg
  | 2 => if arg = 0x00#8 then .ok .deinit else .error .nonzeroArg
  | 3 =>
    match kindOf arg with
    | some k => .ok (sendCommandOf k)
    | none => .error .reservedKind
  | 4 => if arg = 0x00#8 then .ok .queryDevices else .error .nonzeroArg
  | 5 => .ok (.sendRaw arg.toNat)
  | _ => .error .reservedOp

/-- The decoder of request words: bits 31 to 12 are ignored (30_encoding.md R70). -/
def decodeRequest (w : Word) : Except DecodeError Instr :=
  decodeOpArg (requestOp w) (requestArg w)

/-- The decoder of frames: the frame checker (41_frame_codec.md R101). -/
def decodeFrame (f : List Byte) : Except DecodeError Instr :=
  match frameCheck f with
  | .command k => .ok (commandFrameOf k)
  | .query => .ok .queryFrame
  | .invalid r => .error (.badFrame r)

/-- The decoder, total on any word and any bytes. -/
def decode : Code → Except DecodeError Instr
  | .request w => decodeRequest w
  | .frame f => decodeFrame f

/-! ### The encoder -/

/-- The word of a SEND_COMMAND (30_encoding.md R79). -/
def sendCommandWord (k : Kind) : Word := 0x00000300#32 ||| (kindCode k).setWidth 32

/-- The code of an instruction (30_encoding.md R76, R77). -/
def encode : Instr → Code
  | .init => .request 0x00000100#32
  | .deinit => .request 0x00000200#32
  | .sendCommandRedOn => .request (sendCommandWord .redOn)
  | .sendCommandYellowOn => .request (sendCommandWord .yellowOn)
  | .sendCommandGreenOn => .request (sendCommandWord .greenOn)
  | .sendCommandRedSlow => .request (sendCommandWord .redSlow)
  | .sendCommandYellowSlow => .request (sendCommandWord .yellowSlow)
  | .sendCommandGreenSlow => .request (sendCommandWord .greenSlow)
  | .sendCommandRedBurst => .request (sendCommandWord .redBurst)
  | .sendCommandYellowBurst => .request (sendCommandWord .yellowBurst)
  | .sendCommandGreenBurst => .request (sendCommandWord .greenBurst)
  | .sendCommandLightOff => .request (sendCommandWord .lightOff)
  | .queryDevices => .request 0x00000400#32
  | .sendRaw len => .request (0x00000500#32 ||| (BitVec.ofNat 8 len).setWidth 32)
  | .commandFrameRedOn => .frame (encodeCommand .redOn).toList
  | .commandFrameYellowOn => .frame (encodeCommand .yellowOn).toList
  | .commandFrameGreenOn => .frame (encodeCommand .greenOn).toList
  | .commandFrameRedSlow => .frame (encodeCommand .redSlow).toList
  | .commandFrameYellowSlow => .frame (encodeCommand .yellowSlow).toList
  | .commandFrameGreenSlow => .frame (encodeCommand .greenSlow).toList
  | .commandFrameRedBurst => .frame (encodeCommand .redBurst).toList
  | .commandFrameYellowBurst => .frame (encodeCommand .yellowBurst).toList
  | .commandFrameGreenBurst => .frame (encodeCommand .greenBurst).toList
  | .commandFrameLightOff => .frame (encodeCommand .lightOff).toList
  | .queryFrame => .frame encodeQuery.toList

/-! ### The opcode table's numbers -/

/-- The `n` bytes of a number, most significant first: FRAME[0] is the most significant byte (30_encoding.md R77). -/
def bytesOfNumber : Nat → Nat → List Byte
  | 0, _ => []
  | n + 1, w => BitVec.ofNat 8 (w / 2 ^ (8 * n)) :: bytesOfNumber n w

/-- The code that a number of the opcode table stands for (log 9): up to 32 bits a request word, 80 bits a frame. -/
def tableCode (nbits w : Nat) : Option Code :=
  if nbits = 80 then some (.frame (bytesOfNumber 10 w))
  else if nbits ≤ 32 then some (.request (BitVec.ofNat 32 (w % 2 ^ nbits)))
  else none

/-- What the decoder reads from a number of the opcode table. -/
def decodeTableWord (nbits w : Nat) : Option Instr :=
  match tableCode nbits w with
  | some c => (decode c).toOption
  | none => none

end Sys2Proof
end

