-- ==== Sys2Proof/Machine/State.lean ====
section
/-! DEFINITION. The state of one block (10_state.md), with the model's own fields for its parameters, its environment and its host;
the reasons a step can stop; the state after reset. -/

namespace Sys2Proof.Machine

/-- The sequencer's FSM states (10_state.md R22). The encodings 10 to 15 are never written and have no constructor. -/
inductive SeqState where
  | idle | dispatch | encode | write | drain | flush | settle | read | check | fallback
deriving DecidableEq, Repr, Inhabited

/-- The error codes (60_exceptions.md R148); `noError` is NONE. -/
inductive ErrCode where
  | noError | alreadyOpen | notOpen | driverError | partialWrite | noResponse | invalidArgument | transportError
deriving DecidableEq, Repr, Inhabited

/-- The response buffer as (index, byte) cells (20_memory.md R46). An index that is not listed holds no value (10_state.md R30). -/
abbrev Memory := List Host.Cell

/-- Where the machine stops because the spec gives what it was asked no meaning. No run from reset reaches one. -/
inductive Fault where
  /-- Raised by S in ENCODE with SEND_COMMAND and a reserved kind latched: ENCODE_COMMAND is undefined there
  (41_frame_codec.md R95, R98; K29). Safe: the hardware may do anything, the model stops. -/
  | encodeReservedKind
  /-- Raised by a store to RESP_BUF at an index of 256 or more, which does not exist (20_memory.md R46). Safe. -/
  | respIndexAbsent
deriving DecidableEq, Repr

/-- Where the model answers nothing. -/
inductive Refusal where
  /-- Raised by an arm of `exec` for an instruction without a meaning. Every instruction has one. Safe. -/
  | notModelled (mnemonic : String)
  /-- Raised by the steps that read a parameter, when the parameters break their constraints (10_state.md R25; D12; K28).
  Safe: the spec refuses such a configuration. -/
  | configuration
deriving DecidableEq, Repr

/-- One block instance (10_state.md R18 to R31, which is the whole state, R33), then the model's own fields. -/
structure State where
  /-- STATUS.INIT: the session is open. -/
  init : Bool
  /-- STATUS.BUSY. -/
  busy : Bool
  /-- STATUS.DONE. -/
  done : Bool
  /-- STATUS.SUCCESS. -/
  success : Bool
  /-- STATUS.ERR. -/
  err : ErrCode
  /-- STATUS.TXTO. -/
  txto : Bool
  /-- STATUS.STATE, the control location. -/
  state : SeqState
  /-- STATUS.FAULT, sticky. -/
  fault : Bool
  /-- STATUS.REFUSED, sticky. -/
  refused : Bool
  /-- OP_L, the latched CMD[11:8]. -/
  opL : BitVec 4
  /-- ARG_L, the latched CMD[7:0]. -/
  argL : Byte
  /-- RESP_LEN, 0 to 256. -/
  respLen : BitVec 9
  /-- RESP_BUF. -/
  respBuf : Memory
  /-- CFG_PORT[7:0]. -/
  cfgPort : Byte
  /-- CFG_TX_PIN[7:0]. -/
  cfgTxPin : Byte
  /-- CFG_RX_PIN[7:0]. -/
  cfgRxPin : Byte
  /-- CFG_BAUD[31:0]. -/
  cfgBaud : Word
  /-- CFG_SETTLE_MS[15:0]. -/
  cfgSettleMs : BitVec 16
  /-- FRAME[0] to FRAME[9]. -/
  frame : Vector Byte 10
  /-- TMR, the timeout counter. -/
  tmr : Word
  /-- CRC_ACC, CRC_IDX and CRC_BIT. -/
  crc : CrcGen
  /-- PORT_S. -/
  portS : Byte
  /-- TX_PIN_S. -/
  txPinS : Byte
  /-- RX_PIN_S. -/
  rxPinS : Byte
  /-- BAUD_S. -/
  baudS : Word
  /-- TXF, head first. -/
  txf : List Byte
  /-- RXF, head first. -/
  rxf : List Byte
  /-- WIRE_TX, the bytes put on the bus since reset, oldest first. -/
  wireTx : List Byte
  /-- Model: the OPEN parameters (log 6). -/
  params : Params
  /-- Model: the agent steps still to come, next first (log 1). -/
  env : List AgentStep
  /-- Model: how many steps have been taken; it indexes the free values (log 16). -/
  eventNo : Nat
  /-- Model: what the environment draws for the step being taken (log 16). -/
  draw : Draw
  /-- Model: the program agent H runs (log 14). -/
  hostProg : List HostPrim
  /-- Model: H's position in its program. -/
  hostPc : Nat
  /-- Model: the value H read last, the `s` of 30_encoding.md R80. -/
  hostVal : Word
deriving DecidableEq, Repr

/-- The machine right after reset (10_state.md R36; 70_reset_and_hazards.md R166). FRAME and the session registers are
unspecified there: zero is the model's choice (logs 4, 5). The model's own fields are named in logs 1, 6, 14 and 16. -/
def State.reset : State where
  init := false
  busy := false
  done := false
  success := false
  err := .noError
  txto := false
  state := .idle
  fault := false
  refused := false
  opL := 0x0#4
  argL := 0x00#8
  respLen := 0#9
  respBuf := []
  cfgPort := 0x00#8
  cfgTxPin := 0x00#8
  cfgRxPin := 0x00#8
  cfgBaud := 0x00000000#32
  cfgSettleMs := 10#16
  frame := #v[0x00#8, 0x00#8, 0x00#8, 0x00#8, 0x00#8, 0x00#8, 0x00#8, 0x00#8, 0x00#8, 0x00#8]
  tmr := 0x00000000#32
  crc := { acc := 0xFFFF#16, idx := 0, bit := 0 }
  portS := 0x00#8
  txPinS := 0x00#8
  rxPinS := 0x00#8
  baudS := 0x00000000#32
  txf := []
  rxf := []
  wireTx := []
  params := Config.params
  env := []
  eventNo := 0
  draw := { drv := .drvOk, wr := .ok 10, rd := .rdOk }
  hostProg := []
  hostPc := 0
  hostVal := 0x00000000#32

end Sys2Proof.Machine
end

