-- ==== Sys2Proof/Machine/Flags.lean ====
section
/-! DEFINITION. STATUS as the host reads it: the codes of its fields and the word they make (10_state.md R19, R22; 60_exceptions.md
R148). -/

namespace Sys2Proof.Machine

/-- The encoding of an FSM state (10_state.md R22). -/
def seqCode : SeqState → BitVec 4
  | .idle => 0#4
  | .dispatch => 1#4
  | .encode => 2#4
  | .write => 3#4
  | .drain => 4#4
  | .flush => 5#4
  | .settle => 6#4
  | .read => 7#4
  | .check => 8#4
  | .fallback => 9#4

/-- The number of an error (60_exceptions.md R148). -/
def errNumber : ErrCode → BitVec 3
  | .noError => 0#3
  | .alreadyOpen => 1#3
  | .notOpen => 2#3
  | .driverError => 3#3
  | .partialWrite => 4#3
  | .noResponse => 5#3
  | .invalidArgument => 6#3
  | .transportError => 7#3

/-- One bit at a position of a word. -/
def bitAt (n : Nat) (b : Bool) : Word := (BitVec.ofBool b).setWidth 32 <<< n

/-- STATUS (10_state.md R19): bits 31 to 14 read 0. -/
def statusWord (s : State) : Word :=
  bitAt 0 s.init ||| bitAt 1 s.busy ||| bitAt 2 s.done ||| bitAt 3 s.success
    ||| ((errNumber s.err).setWidth 32 <<< 4) ||| bitAt 7 s.txto
    ||| ((seqCode s.state).setWidth 32 <<< 8) ||| bitAt 12 s.fault ||| bitAt 13 s.refused

end Sys2Proof.Machine
end

