-- ==== Sys2Proof/Machine/Ops.lean ====
section
/-! DEFINITION. The named operations on a block's state: the response buffer, the timer, the acceptance of a request, the end of
an exchange, an error, a refusal, a host fault. -/

namespace Sys2Proof.Machine

/-- The answer of a step or of an instruction's meaning. -/
abbrev Result := Host.Outcome State Fault Refusal

/-! ### The response buffer -/

/-- The byte listed at an index, if one is. -/
def cellRead : Memory → Nat → Option Byte
  | [], _ => none
  | (i, b) :: m, a => if i = a then some b else cellRead m a

/-- Put a byte at an index, keeping the indices strictly rising. -/
def cellWrite : Memory → Nat → Byte → Memory
  | [], a, b => [(a, b)]
  | (i, c) :: m, a, b =>
    if a < i then (a, b) :: (i, c) :: m
    else if a = i then (a, b) :: m
    else (i, c) :: cellWrite m a b

/-- The canonical form of the response buffer: indices strictly rising and below 256 (20_memory.md R46). Every listed index
holds a value, an unlisted one holds none, so equal contents are equal lists. -/
def Memory.wf : Memory → Bool
  | [] => true
  | [(i, _)] => decide (i < 256)
  | (i, _) :: (j, b) :: m => decide (i < j) && Memory.wf ((j, b) :: m)

/-- `MemRead(i, 1)` (00_scope.md R11): RESP_BUF[i] holds a value only for i < RESP_LEN (10_state.md R30). -/
def memRead (i : Nat) (s : State) : Option Byte :=
  if i < s.respLen.toNat then cellRead s.respBuf i else none

/-- `MemWrite(i, 1, b)` for the bytes of a list at consecutive indices; none if an index is 256 or more (20_memory.md R46). -/
def memWriteFrom : Nat → List Byte → Memory → Option Memory
  | _, [], m => some m
  | i, b :: bs, m => if i < 256 then memWriteFrom (i + 1) bs (cellWrite m i b) else none

/-! ### The timer -/

/-- The ticks of a timeout of `ms` milliseconds (00_scope.md R8), as TMR holds them (10_state.md R25). -/
def ticksOf (ms : Nat) (s : State) : Word := BitVec.ofNat 32 (ms * s.params.ticksPerMs)

/-- Go on only with parameters that meet their constraints; the spec refuses the others (10_state.md R25; D12; log 7). -/
def withLegalParams (s : State) (r : Result) : Result :=
  if s.params.legal then r else .refused .configuration

/-! ### The life of a request -/

/-- ACCEPT (43_sequencer.md R125). Every earlier response byte now holds no value, so none is listed (log 3). -/
def accept (v : Word) (s : State) : State :=
  { s with
    opL := requestOp v
    argL := requestArg v
    busy := true
    done := false
    success := false
    err := .noError
    txto := false
    respLen := 0#9
    respBuf := []
    state := .dispatch }

/-- `finish(ok, e)` (43_sequencer.md R126). -/
def finish (ok : Bool) (e : ErrCode) (s : State) : State :=
  { s with
    success := ok
    err := e
    tmr := 0x00000000#32
    busy := false
    done := true
    state := .idle }

/-- `raise E` (00_scope.md R12): the block's whole handling of an error. It has no vector, saves no return state and changes no
mode; the host finds the code in STATUS (60_exceptions.md R156). There is no return from it (60_exceptions.md R157). -/
def raiseErr (e : ErrCode) (s : State) : State := finish false e s

/-- `refuse(reason)` (43_sequencer.md R128): REFUSED is set and nothing else changes. The reason is recorded nowhere. -/
def refuse (s : State) : State := { s with refused := true }

/-- The host broke its duty (43_sequencer.md R124): FAULT is set and the request is discarded. -/
def hostFault (s : State) : State := { s with fault := true }

/-- `state <- S` (00_scope.md R11). -/
def goTo (q : SeqState) (s : State) : State := { s with state := q }

/-- READ's and FALLBACK's storing of the bytes they took (43_sequencer.md R139, R141): RESP_BUF[0 .. n), RESP_LEN, then
finish(1, NONE). -/
def capture (bytes : List Byte) (s : State) : Result :=
  match memWriteFrom 0 bytes s.respBuf with
  | some m => .next (finish true .noError { s with respBuf := m, respLen := BitVec.ofNat 9 bytes.length })
  | none => .fault .respIndexAbsent

/-- The reset input (70_reset_and_hazards.md R166, R168): every state element of the block takes its reset value in one step.
The parameters, the environment and the host are not the block's (log 13). -/
def blockReset (s : State) : State :=
  { State.reset with
    params := s.params
    env := s.env
    eventNo := s.eventNo
    draw := s.draw
    hostProg := s.hostProg
    hostPc := s.hostPc
    hostVal := s.hostVal }

/-! ### The environment -/

/-- Which agent steps next (log 1): the first listed step, or a free one. -/
def nextAgentStep (s : State) : AgentStep :=
  match s.env with
  | a :: _ => a
  | [] => Config.freeAgentStep s.eventNo

/-- The state in which the next agent steps: one listed step used up, one more step counted. -/
def advance (s : State) : State := { s with env := s.env.tail, eventNo := s.eventNo + 1 }

/-- The environment's draw for a step of S. -/
def withDraw (d : Draw) (s : State) : State := { s with draw := d }

end Sys2Proof.Machine
end

