-- ==== Sys2Proof/Machine/Operands.lean ====
section
/-! DEFINITION. The host register space (10_state.md R18; 20_memory.md R47): HostRead and HostWrite. -/

namespace Sys2Proof.Machine

/-- The word a read of RESP_BUF[i] returns: the byte in bits 7 to 0, or a free value where the index holds none
(10_state.md R30; K24; log 3). -/
def respWord (i : Nat) (s : State) : Word :=
  match memRead i s with
  | some b => b.setWidth 32
  | none => Config.freeRespWord s.eventNo i

/-- HostRead (20_memory.md R47). Undefined bits and unassigned numbers read 0 (10_state.md R18). -/
def hostRead (n : RegNum) (s : State) : Word :=
  if n = 0x000#12 then (s.opL.setWidth 32 <<< 8) ||| s.argL.setWidth 32
  else if n = 0x001#12 then statusWord s
  else if n = 0x002#12 then s.respLen.setWidth 32
  else if n = 0x003#12 then s.cfgPort.setWidth 32
  else if n = 0x004#12 then s.cfgTxPin.setWidth 32
  else if n = 0x005#12 then s.cfgRxPin.setWidth 32
  else if n = 0x006#12 then s.cfgBaud
  else if n = 0x007#12 then s.cfgSettleMs.setWidth 32
  else if 0x100 ≤ n.toNat ∧ n.toNat < 0x200 then respWord (n.toNat - 0x100) s
  else 0x00000000#32

/-- A write to CMD (43_sequencer.md R123 to R125). -/
def hostWriteCmd (v : Word) (s : State) : State :=
  if s.busy then hostFault s else accept v s

/-- HostWrite (43_sequencer.md R123). Undefined bits, read-only registers and unassigned numbers ignore writes
(10_state.md R18). -/
def hostWrite (n : RegNum) (v : Word) (s : State) : State :=
  if n = 0x000#12 then hostWriteCmd v s
  else if n = 0x003#12 then { s with cfgPort := v.setWidth 8 }
  else if n = 0x004#12 then { s with cfgTxPin := v.setWidth 8 }
  else if n = 0x005#12 then { s with cfgRxPin := v.setWidth 8 }
  else if n = 0x006#12 then { s with cfgBaud := v }
  else if n = 0x007#12 then { s with cfgSettleMs := v.setWidth 16 }
  else s

end Sys2Proof.Machine
end

