-- ==== Sys2Proof/Machine/HostProgram.lean ====
section
/-! DEFINITION. Agent H running a program (30_encoding.md R79, R80): the lines' expansion into host primitives, and one primitive
step. The host is outside the block; it changes the block only through HostWrite. -/

namespace Sys2Proof.Machine

/-- The expansion of one line (30_encoding.md R79, R80). -/
def expandOp : HostOp → List HostPrim
  | .init => [.write 0x000#12 0x00000100#32]
  | .deinit => [.write 0x000#12 0x00000200#32]
  | .sendCommand k => [.write 0x000#12 (0x00000300#32 ||| (kindCode k).setWidth 32)]
  | .queryDevices => [.write 0x000#12 0x00000400#32]
  | .sendRaw n => [.write 0x000#12 (0x00000500#32 ||| BitVec.ofNat 32 n)]
  | .cmd v => [.write 0x000#12 v]
  | .cfg p t r b => [.write 0x003#12 p, .write 0x004#12 t, .write 0x005#12 r, .write 0x006#12 b]
  | .settle ms => [.write 0x007#12 ms]
  | .wait => [.read 0x001#12, .branchIf 2 false (.back 1)]
  | .bfail l => [.read 0x001#12, .branchIf 3 false (.label l)]
  | .bok l => [.read 0x001#12, .branchIf 3 true (.label l)]
  | .jmp l => [.goto (.label l)]
  | .halt => [.halt]
  | .label l => [.mark l]

/-- The primitives of a host program. -/
def expandProgram (p : List HostOp) : List HostPrim := p.flatMap expandOp

/-- Where a jump at position `pc` lands: at the marked line, or back in the expansion. A label that is not there lands past the
end, where the program has ended (log 14). -/
def jumpTo (prog : List HostPrim) (pc : Nat) : HostTarget → Nat
  | .label l => prog.idxOf (.mark l)
  | .back k => pc - k

/-- One step of H through its program: one primitive of 30_encoding.md R80. After `halt`, or past the end, H does nothing. -/
def hostProgramStep (s : State) : State :=
  match s.hostProg[s.hostPc]? with
  | none => s
  | some .halt => s
  | some (.write n v) => { hostWrite n v s with hostPc := s.hostPc + 1 }
  | some (.read n) => { s with hostVal := hostRead n s, hostPc := s.hostPc + 1 }
  | some (.branchIf bit val t) =>
    { s with hostPc := if s.hostVal.getLsbD bit = val then jumpTo s.hostProg s.hostPc t else s.hostPc + 1 }
  | some (.goto t) => { s with hostPc := jumpTo s.hostProg s.hostPc t }
  | some (.mark _) => { s with hostPc := s.hostPc + 1 }

/-- The state in which H is about to run a host program from its first line. -/
def loadHostProgram (p : List HostOp) (s : State) : State :=
  { s with hostProg := expandProgram p, hostPc := 0 }

end Sys2Proof.Machine
end

