-- ==== Sys2Proof/Machine/Frames.lean ====
section
/-! DEFINITION. The meanings of the frames: what S does in ENCODE (43_sequencer.md R134) to put a frame into FRAME
(41_frame_codec.md R98, R99). -/

namespace Sys2Proof.Machine

/-- ENCODE of a payload: the 48 bit steps of the CRC generator (40_crc16.md R88), the assembled frame (41_frame_codec.md R97)
into FRAME, and on to WRITE. -/
def encodeFrame (p : Vector Byte 6) (s : State) : Result :=
  .next { s with crc := crcSerial p.toList, frame := assemble p, state := .write }

/-- ENCODE_COMMAND(RedOn): the frame `01 06 00 C2 00 11 E8 3A 00 00` (41_frame_codec.md R98). -/
def execCommandFrameRedOn (s : State) : Result := encodeFrame (kindPayload .redOn) s

/-- ENCODE_COMMAND(YellowOn): the frame `01 06 00 C2 00 12 A8 3B 00 00` (41_frame_codec.md R98). -/
def execCommandFrameYellowOn (s : State) : Result := encodeFrame (kindPayload .yellowOn) s

/-- ENCODE_COMMAND(GreenOn): the frame `01 06 00 C2 00 13 69 FB 00 00` (41_frame_codec.md R98). -/
def execCommandFrameGreenOn (s : State) : Result := encodeFrame (kindPayload .greenOn) s

/-- ENCODE_COMMAND(RedSlow): the frame `01 06 00 C2 00 21 E8 2E 00 00` (41_frame_codec.md R98). -/
def execCommandFrameRedSlow (s : State) : Result := encodeFrame (kindPayload .redSlow) s

/-- ENCODE_COMMAND(YellowSlow): the frame `01 06 00 C2 00 22 A8 2F 00 00` (41_frame_codec.md R98). -/
def execCommandFrameYellowSlow (s : State) : Result := encodeFrame (kindPayload .yellowSlow) s

/-- ENCODE_COMMAND(GreenSlow): the frame `01 06 00 C2 00 23 69 EF 00 00` (41_frame_codec.md R98). -/
def execCommandFrameGreenSlow (s : State) : Result := encodeFrame (kindPayload .greenSlow) s

/-- ENCODE_COMMAND(RedBurst): the frame `01 06 00 C2 00 31 E9 E2 00 00` (41_frame_codec.md R98). -/
def execCommandFrameRedBurst (s : State) : Result := encodeFrame (kindPayload .redBurst) s

/-- ENCODE_COMMAND(YellowBurst): the frame `01 06 00 C2 00 32 A9 E3 00 00` (41_frame_codec.md R98). -/
def execCommandFrameYellowBurst (s : State) : Result := encodeFrame (kindPayload .yellowBurst) s

/-- ENCODE_COMMAND(GreenBurst): the frame `01 06 00 C2 00 33 68 23 00 00` (41_frame_codec.md R98). -/
def execCommandFrameGreenBurst (s : State) : Result := encodeFrame (kindPayload .greenBurst) s

/-- ENCODE_COMMAND(LightOff): the frame `01 06 00 C2 00 60 28 1E 00 00` (41_frame_codec.md R98). -/
def execCommandFrameLightOff (s : State) : Result := encodeFrame (kindPayload .lightOff) s

/-- ENCODE_QUERY: the frame `FF 03 00 3F 00 00 60 18 00 00` (41_frame_codec.md R99). -/
def execQueryFrame (s : State) : Result := encodeFrame queryPayload s

end Sys2Proof.Machine
end

