-- ==== Sys2Proof/Machine/Transport.lean ====
section
/-! DEFINITION. The serial transport's primitives (42_transport.md R107 to R117) as the sequencer calls them (00_scope.md R17). Each
answers its result or the error it fails with; on a closed session all but `open` fail with NotOpen and change nothing (R117). -/

namespace Sys2Proof.Machine

/-- What a successful `open` does (42_transport.md R109). -/
def openSession (s : State) : State :=
  { s with
    init := true
    portS := s.cfgPort
    txPinS := s.cfgTxPin
    rxPinS := s.cfgRxPin
    baudS := s.cfgBaud
    txf := []
    rxf := [] }

/-- What `close` does to an open session (42_transport.md R116): bytes still in TXF are lost. -/
def closeSession (s : State) : State := { s with init := false, txf := [], rxf := [] }

/-- The first `n` bytes of FRAME enter TXF (42_transport.md R111). -/
def queueFrame (n : Nat) (s : State) : State := { s with txf := s.txf ++ s.frame.toList.take n }

/-- The first `n` bytes leave RXF (42_transport.md R113). -/
def dropReceived (n : Nat) (s : State) : State := { s with rxf := s.rxf.drop n }

/-- `open` (42_transport.md R108 to R110): AlreadyOpen, then the driver's draw. -/
def transportOpen (s : State) : Except ErrCode State :=
  if s.init then .error .alreadyOpen
  else
    match s.draw.drv with
    | .drvFail => .error .driverError
    | .drvOk => .ok (openSession s)

/-- `write` of FRAME (42_transport.md R111): the draw says how many of its bytes enter TXF and whether it failed. -/
def transportWrite (s : State) : Except ErrCode (WriteOutcome × State) :=
  if s.init then
    match s.draw.wr with
    | .ok n => .ok (.ok n, queueFrame n.val s)
    | .err j => .ok (.err j, queueFrame j.val s)
  else .error .notOpen

/-- `wait_tx_drained` (42_transport.md R112), at the step that ends it: true if it ended with a timeout. -/
def transportDrained (s : State) : Except ErrCode Bool :=
  if s.init then .ok (!s.txf.isEmpty) else .error .notOpen

/-- `read` (42_transport.md R113), at the step that ends it: the first `maxLen` bytes of RXF. An error of the transport is an
empty result. -/
def transportRead (maxLen : Nat) (s : State) : Except ErrCode (List Byte × State) :=
  if s.init then
    match s.draw.rd with
    | .rdOk => .ok (s.rxf.take maxLen, dropReceived maxLen s)
    | .rdErr => .ok ([], s)
  else .error .notOpen

/-- `buffered_len` (42_transport.md R114). -/
def transportBuffered (s : State) : Except ErrCode Nat :=
  if s.init then .ok s.rxf.length else .error .notOpen

/-- `flush_input` (42_transport.md R115). -/
def transportFlush (s : State) : Except ErrCode State :=
  if s.init then .ok { s with rxf := [] } else .error .notOpen

/-- `close` (42_transport.md R116). -/
def transportClose (s : State) : Except ErrCode State :=
  if s.init then .ok (closeSession s) else .error .notOpen

/-- Go on with the result of a primitive, or end the exchange with the error it failed with. -/
def onTransport {α : Type} (s : State) (call : Except ErrCode α) (k : α → Result) : Result :=
  match call with
  | .ok a => k a
  | .error e => .next (raiseErr e s)

end Sys2Proof.Machine
end

