-- ==== Sys2Proof/Machine/Requests.lean ====
section
/-! DEFINITION. The meanings of the host requests: what S does in DISPATCH (43_sequencer.md R129 to R133). The tests of the encoding
come before (60_exceptions.md R151): a word with a nonzero ARG or a reserved kind decodes to no request. -/

namespace Sys2Proof.Machine

/-- The dispatch of SEND_COMMAND and QUERY_DEVICES on the session test (43_sequencer.md R131, R132). -/
def startExchange (s : State) : Result :=
  .next (if s.init then goTo .encode s else raiseErr .notOpen s)

/-- INIT (43_sequencer.md R129). -/
def execInit (s : State) : Result :=
  onTransport s (transportOpen s) fun t => .next (finish true .noError t)

/-- DEINIT (43_sequencer.md R130). -/
def execDeinit (s : State) : Result :=
  onTransport s (transportClose s) fun t => .next (finish true .noError t)

/-- SEND_COMMAND RED_ON (43_sequencer.md R131). -/
def execSendCommandRedOn (s : State) : Result := startExchange s

/-- SEND_COMMAND YELLOW_ON (43_sequencer.md R131). -/
def execSendCommandYellowOn (s : State) : Result := startExchange s

/-- SEND_COMMAND GREEN_ON (43_sequencer.md R131). -/
def execSendCommandGreenOn (s : State) : Result := startExchange s

/-- SEND_COMMAND RED_SLOW (43_sequencer.md R131). -/
def execSendCommandRedSlow (s : State) : Result := startExchange s

/-- SEND_COMMAND YELLOW_SLOW (43_sequencer.md R131). -/
def execSendCommandYellowSlow (s : State) : Result := startExchange s

/-- SEND_COMMAND GREEN_SLOW (43_sequencer.md R131). -/
def execSendCommandGreenSlow (s : State) : Result := startExchange s

/-- SEND_COMMAND RED_BURST (43_sequencer.md R131). -/
def execSendCommandRedBurst (s : State) : Result := startExchange s

/-- SEND_COMMAND YELLOW_BURST (43_sequencer.md R131). -/
def execSendCommandYellowBurst (s : State) : Result := startExchange s

/-- SEND_COMMAND GREEN_BURST (43_sequencer.md R131). -/
def execSendCommandGreenBurst (s : State) : Result := startExchange s

/-- SEND_COMMAND LIGHT_OFF (43_sequencer.md R131). -/
def execSendCommandLightOff (s : State) : Result := startExchange s

/-- QUERY_DEVICES (43_sequencer.md R132). -/
def execQueryDevices (s : State) : Result := startExchange s

/-- SEND_RAW (43_sequencer.md R133): a zero length is InvalidArgument whatever the session; any other length is refused. -/
def execSendRaw (len : Nat) (s : State) : Result :=
  .next (if len = 0 then raiseErr .invalidArgument s else refuse s)

end Sys2Proof.Machine
end

