-- ==== Sys2Proof/Machine/Dispatch.lean ====
section
/-! DEFINITION. One arm for each instruction. -/

namespace Sys2Proof.Machine

def exec (i : Instr) (s : State) : Host.Outcome State Fault Refusal :=
  match i with
  | .init => Sys2Proof.Machine.execInit s
  | .deinit => Sys2Proof.Machine.execDeinit s
  | .sendCommandRedOn => Sys2Proof.Machine.execSendCommandRedOn s
  | .sendCommandYellowOn => Sys2Proof.Machine.execSendCommandYellowOn s
  | .sendCommandGreenOn => Sys2Proof.Machine.execSendCommandGreenOn s
  | .sendCommandRedSlow => Sys2Proof.Machine.execSendCommandRedSlow s
  | .sendCommandYellowSlow => Sys2Proof.Machine.execSendCommandYellowSlow s
  | .sendCommandGreenSlow => Sys2Proof.Machine.execSendCommandGreenSlow s
  | .sendCommandRedBurst => Sys2Proof.Machine.execSendCommandRedBurst s
  | .sendCommandYellowBurst => Sys2Proof.Machine.execSendCommandYellowBurst s
  | .sendCommandGreenBurst => Sys2Proof.Machine.execSendCommandGreenBurst s
  | .sendCommandLightOff => Sys2Proof.Machine.execSendCommandLightOff s
  | .queryDevices => Sys2Proof.Machine.execQueryDevices s
  | .sendRaw len => Sys2Proof.Machine.execSendRaw len s
  | .commandFrameRedOn => Sys2Proof.Machine.execCommandFrameRedOn s
  | .commandFrameYellowOn => Sys2Proof.Machine.execCommandFrameYellowOn s
  | .commandFrameGreenOn => Sys2Proof.Machine.execCommandFrameGreenOn s
  | .commandFrameRedSlow => Sys2Proof.Machine.execCommandFrameRedSlow s
  | .commandFrameYellowSlow => Sys2Proof.Machine.execCommandFrameYellowSlow s
  | .commandFrameGreenSlow => Sys2Proof.Machine.execCommandFrameGreenSlow s
  | .commandFrameRedBurst => Sys2Proof.Machine.execCommandFrameRedBurst s
  | .commandFrameYellowBurst => Sys2Proof.Machine.execCommandFrameYellowBurst s
  | .commandFrameGreenBurst => Sys2Proof.Machine.execCommandFrameGreenBurst s
  | .commandFrameLightOff => Sys2Proof.Machine.execCommandFrameLightOff s
  | .queryFrame => Sys2Proof.Machine.execQueryFrame s

end Sys2Proof.Machine
end

