-- ==== Sys2Proof/Machine/Sequencer.lean ====
section
/-! DEFINITION. The sequencer S: when it is enabled, what it fetches in DISPATCH and ENCODE, and the exchange states WRITE to
FALLBACK (43_sequencer.md R127, R134 to R142). -/

namespace Sys2Proof.Machine

/-- When S can step (the `enabled when` column of 43_sequencer.md R142). After a refusal it never can (R128). -/
def seqEnabled (s : State) : Bool :=
  !s.refused &&
  match s.state with
  | .idle => false
  | .dispatch => true
  | .encode => true
  | .write => decide (s.txf.length + frameLen ≤ s.params.txDepth)
  | .drain => s.txf.isEmpty || s.tmr == 0x00000000#32
  | .flush => true
  | .settle => s.tmr == 0x00000000#32
  | .read => !s.rxf.isEmpty || s.tmr == 0x00000000#32
  | .check => true
  | .fallback => true

/-! ### The fetch -/

/-- What S runs in DISPATCH: the request that OP_L and ARG_L select (43_sequencer.md R127), or the reason there is none. -/
def fetchRequest (s : State) : Except DecodeError Instr := decodeOpArg s.opL s.argL

/-- What S runs in ENCODE: the command frame of the latched kind, or the query frame (43_sequencer.md R134). There is none for
SEND_COMMAND with a reserved kind (K29). -/
def fetchFrame (s : State) : Option Instr :=
  if s.opL = 0x3#4 then (kindOf s.argL).map commandFrameOf else some .queryFrame

/-- DISPATCH (43_sequencer.md R127, R128). -/
def stepDispatch (s : State) : Result :=
  match fetchRequest s with
  | .ok i => exec i s
  | .error _ => .next (refuse s)

/-- ENCODE (43_sequencer.md R134). -/
def stepEncode (s : State) : Result :=
  match fetchFrame s with
  | some i => exec i s
  | none => .fault .encodeReservedKind

/-! ### The exchange -/

/-- WRITE (43_sequencer.md R135). -/
def stepWrite (s : State) : Result :=
  withLegalParams s <|
    onTransport s (transportWrite s) fun
      | (.ok n, t) =>
        if n.val = frameLen then .next { t with tmr := ticksOf s.params.drainTimeoutMs s, state := .drain }
        else .next (raiseErr .partialWrite t)
      | (.err _, t) => .next (raiseErr .transportError t)

/-- DRAIN (43_sequencer.md R136): a timeout sets TXTO and is no failure. -/
def stepDrain (s : State) : Result :=
  onTransport s (transportDrained s) fun timedOut =>
    let t := if timedOut then { s with txto := true } else s
    .next (if s.opL = 0x3#4 then finish true .noError t else goTo .flush t)

/-- FLUSH (43_sequencer.md R137). -/
def stepFlush (s : State) : Result :=
  withLegalParams s <|
    onTransport s (transportFlush s) fun t =>
      .next { t with tmr := ticksOf s.cfgSettleMs.toNat s, state := .settle }

/-- SETTLE (43_sequencer.md R138). -/
def stepSettle (s : State) : Result :=
  withLegalParams s <| .next { s with tmr := ticksOf readTimeoutMs s, state := .read }

/-- READ (43_sequencer.md R139): the bytes if there are any, else CHECK. -/
def stepRead (s : State) : Result :=
  onTransport s (transportRead respCap s) fun
    | ([], t) => .next (goTo .check t)
    | (b :: bs, t) => capture (b :: bs) t

/-- CHECK (43_sequencer.md R140). -/
def stepCheck (s : State) : Result :=
  onTransport s (transportBuffered s) fun n =>
    .next (if 0 < n then goTo .fallback s else raiseErr .noResponse s)

/-- FALLBACK (43_sequencer.md R141). -/
def stepFallback (s : State) : Result :=
  onTransport s (transportRead respCap s) fun
    | ([], t) => .next (raiseErr .noResponse t)
    | (b :: bs, t) => capture (b :: bs) t

/-- One enabled step of S. -/
def seqBody (s : State) : Result :=
  match s.state with
  | .idle => .next s
  | .dispatch => stepDispatch s
  | .encode => stepEncode s
  | .write => stepWrite s
  | .drain => stepDrain s
  | .flush => stepFlush s
  | .settle => stepSettle s
  | .read => stepRead s
  | .check => stepCheck s
  | .fallback => stepFallback s

/-- A step of S: while it is not enabled, S waits. -/
def seqStep (s : State) : Result := if seqEnabled s then seqBody s else .next s

end Sys2Proof.Machine
end

