-- ==== Sys2Proof/Machine/Agents.lean ====
section
/-! DEFINITION. The steps of all agents (00_scope.md R13): LT, RD and TK (42_transport.md R118 to R120), H, the reset input, and S.
An agent that is not enabled leaves everything as it is (log 2). -/

namespace Sys2Proof.Machine

/-- LT can step (42_transport.md R118). -/
def ltEnabled (s : State) : Bool := s.init && !s.txf.isEmpty

/-- LT, the line transmitter (42_transport.md R118). -/
def lineTxStep (s : State) : State :=
  match s.init, s.txf with
  | true, b :: rest => { s with txf := rest, wireTx := s.wireTx ++ [b] }
  | _, _ => s

/-- RD, the receive side (42_transport.md R119): a byte that finds RXF full is lost. -/
def receiveStep (b : Byte) (s : State) : Result :=
  if s.init then
    withLegalParams s (.next (if s.rxf.length < s.params.rxDepth then { s with rxf := s.rxf ++ [b] } else s))
  else .next s

/-- TK can step (42_transport.md R120). -/
def tkEnabled (s : State) : Bool := !(s.tmr == 0x00000000#32)

/-- TK, the tick source (42_transport.md R120). -/
def tickStep (s : State) : State :=
  if s.tmr = 0x00000000#32 then s else { s with tmr := s.tmr - 0x00000001#32 }

/-- H reads a register: no side effect on the block (10_state.md R18). -/
def hostReadStep (n : RegNum) (s : State) : State := { s with hostVal := hostRead n s }

/-- One step of the given agent. -/
def agentStep (a : AgentStep) (s : State) : Result :=
  match a with
  | .seq d => seqStep (withDraw d s)
  | .lineTx => .next (lineTxStep s)
  | .receive b => receiveStep b s
  | .tick => .next (tickStep s)
  | .hostWrite n v => .next (hostWrite n v s)
  | .hostRead n => .next (hostReadStep n s)
  | .hostProgram => .next (hostProgramStep s)
  | .resetInput => .next (blockReset s)

/-! ### Placing an instruction where S fetches it -/

/-- S is the next to step, in the FSM state `q` of an accepted request with the given OP and ARG. REFUSED is clear, or S could
not step. -/
def placeAt (q : SeqState) (op : BitVec 4) (arg : Byte) (s : State) : State :=
  { s with
    env := .seq s.draw :: s.env
    opL := op
    argL := arg
    busy := true
    done := false
    refused := false
    state := q }

/-- Place a code so that S runs it next (log 8): a request word as ACCEPT latches it, in DISPATCH; a frame by the latched request
whose ENCODE makes it. A byte sequence that is no frame latches a reserved kind, which ENCODE does not run. -/
def placeCode (c : Code) (s : State) : State :=
  match c with
  | .request w => placeAt .dispatch (requestOp w) (requestArg w) s
  | .frame f =>
    match frameCheck f with
    | .command k => placeAt .encode 0x3#4 (kindCode k) s
    | .query => placeAt .encode 0x4#4 0x00#8 s
    | .invalid _ => placeAt .encode 0x3#4 0x00#8 s

end Sys2Proof.Machine
end

