-- ==== Sys2Proof/Machine/Step.lean ====
section
/-! DEFINITION. One step of the machine: the next agent's step. -/

namespace Sys2Proof.Machine

/-- One step: the agent that is next takes its step (00_scope.md R13; 20_memory.md R60). -/
def step (s : State) : Host.Outcome State Fault Refusal := agentStep (nextAgentStep s) (advance s)

/-- `s` with the instruction of the opcode table's number `w` placed where S fetches it next (log 8). A number that stands for
no code leaves `s` as it is. -/
def State.withFetchWord (s : State) (nbits w : Nat) : State :=
  match tableCode nbits w with
  | some c => placeCode c s
  | none => s

end Sys2Proof.Machine
end

