-- ==== Sys2Proof/Safety.lean ====
section
/-! DEFINITION. What the statements speak of: the states a block can be in, the edges of the FSM, the healthy transport, valid
frames on the wire, the host's writes and its place in its program, and fair schedules. -/

namespace Sys2Proof.Machine

/-- The FSM states of an exchange: those after DISPATCH (43_sequencer.md R134 to R141). -/
def inExchange : SeqState → Bool
  | .idle => false
  | .dispatch => false
  | .encode => true
  | .write => true
  | .drain => true
  | .flush => true
  | .settle => true
  | .read => true
  | .check => true
  | .fallback => true

/-- The FSM states of a query after its drain, which no command reaches (43_sequencer.md R142). -/
def inQueryTail : SeqState → Bool
  | .flush => true
  | .settle => true
  | .read => true
  | .check => true
  | .fallback => true
  | .idle => false
  | .dispatch => false
  | .encode => false
  | .write => false
  | .drain => false

/-- The FSM states in which the timer is clear: before WRITE has loaded it and after finish() (43_sequencer.md R126, R135). -/
def beforeTimer : SeqState → Bool
  | .idle => true
  | .dispatch => true
  | .encode => true
  | .write => true
  | .drain => false
  | .flush => false
  | .settle => false
  | .read => false
  | .check => false
  | .fallback => false

/-- The frame that ENCODE makes for the latched request (43_sequencer.md R134); none for a reserved kind. -/
def latchedFrame (s : State) : Option (Vector Byte 10) :=
  if s.opL = 0x3#4 then (kindOf s.argL).map encodeCommand else some encodeQuery

/-- The states of a block: what holds at reset and after every step. -/
structure Inv (s : State) : Prop where
  /-- The parameters meet their constraints (00_scope.md R7). -/
  legal : s.params.legal = true
  /-- BUSY = 1 implies DONE = 0 (10_state.md R21). -/
  busy_done : s.busy = true → s.done = false
  /-- STATE = IDLE if and only if BUSY = 0 (10_state.md R21). -/
  idle_busy : s.state = .idle ↔ s.busy = false
  /-- A refusal leaves STATE at DISPATCH (43_sequencer.md R128). -/
  refused_at : s.refused = true → s.state = .dispatch
  /-- SUCCESS = 1 implies ERR = 0 (10_state.md R21). -/
  success_err : s.success = true → s.err = .noError
  /-- While a request runs there is no result yet (43_sequencer.md R125, R126). -/
  busy_clear : s.busy = true → s.success = false ∧ s.err = .noError ∧ s.respLen = 0#9
  /-- A failed command or query carries a code (10_state.md R21). -/
  failed_code : s.done = true → (s.opL = 0x3#4 ∨ s.opL = 0x4#4) → s.success = false → s.err ≠ .noError
  /-- A closed session has empty queues (42_transport.md R109, R116). -/
  closed_empty : s.init = false → s.txf = [] ∧ s.rxf = []
  /-- An exchange runs only on an open session (42_transport.md R117). -/
  exchange_open : inExchange s.state = true → s.init = true
  /-- An exchange is a command of one of the ten kinds or a query (43_sequencer.md R131, R132). -/
  exchange_op : inExchange s.state = true →
    (s.opL = 0x3#4 ∧ (kindOf s.argL).isSome = true) ∨ (s.opL = 0x4#4 ∧ s.argL = 0x00#8)
  /-- Only a query goes past DRAIN (43_sequencer.md R136). -/
  query_tail : inQueryTail s.state = true → s.opL = 0x4#4
  /-- After ENCODE, FRAME is the frame of the latched request (43_sequencer.md R134). -/
  frame_latched : inExchange s.state = true → s.state ≠ .encode → latchedFrame s = some s.frame
  /-- No tick outlives an exchange (43_sequencer.md R126). -/
  timer_clear : beforeTimer s.state = true → s.tmr = 0x00000000#32
  /-- TXTO is set only once the drain wait has ended (43_sequencer.md R136). -/
  txto_after : s.txto = true → s.state = .idle ∨ inQueryTail s.state = true
  /-- TXF holds at most TX_DEPTH bytes (10_state.md R28). -/
  txf_bound : s.txf.length ≤ s.params.txDepth
  /-- RXF holds at most RX_DEPTH bytes (10_state.md R29). -/
  rxf_bound : s.rxf.length ≤ s.params.rxDepth
  /-- RESP_LEN is 0 to 256 (10_state.md R30). -/
  resp_bound : s.respLen.toNat ≤ respCap
  /-- Exactly the indices below RESP_LEN hold a value (10_state.md R30). -/
  resp_cells : s.respBuf.map Prod.fst = List.range s.respLen.toNat
  /-- Response bytes belong to a finished, successful query (43_sequencer.md R147). -/
  resp_success : s.respLen ≠ 0#9 → s.done = true ∧ s.success = true ∧ s.opL = 0x4#4
  /-- CRC_IDX is 0 to 6 and CRC_BIT 0 to 8 (10_state.md R26). -/
  crc_range : s.crc.idx ≤ 6 ∧ s.crc.bit ≤ 8

/-- The FSM states S can go to from a state, by the operation code (43_sequencer.md R142): only SEND_COMMAND and QUERY_DEVICES go
on to ENCODE. A refusal stays in DISPATCH. -/
def seqEdges (op : BitVec 4) : SeqState → List SeqState
  | .idle => []
  | .dispatch => if op = 0x3#4 ∨ op = 0x4#4 then [.dispatch, .idle, .encode] else [.dispatch, .idle]
  | .encode => [.write]
  | .write => [.drain, .idle]
  | .drain => if op = 0x3#4 then [.idle] else [.flush]
  | .flush => [.settle]
  | .settle => [.read]
  | .read => [.idle, .check]
  | .check => [.fallback, .idle]
  | .fallback => [.idle]

/-- How many sequencer steps an exchange can still take (43_sequencer.md R145). -/
def stepsLeft : SeqState → Nat
  | .idle => 0
  | .dispatch => 9
  | .encode => 8
  | .write => 7
  | .drain => 6
  | .flush => 5
  | .settle => 4
  | .read => 3
  | .check => 2
  | .fallback => 1

/-- The healthy-transport premise on a draw (42_transport.md R121). -/
def healthyDraw (d : Draw) : Prop := d.drv = .drvOk ∧ d.wr = .ok 10 ∧ d.rd = .rdOk

/-- A frame that passes the frame checker (41_frame_codec.md R101). -/
def validFrame (f : Vector Byte 10) : Prop := ∀ r, frameCheck f.toList ≠ .invalid r

/-- A byte sequence made of whole valid frames. -/
def wholeFrames (bs : List Byte) : Prop :=
  ∃ fs : List (Vector Byte 10), (∀ f ∈ fs, validFrame f) ∧ bs = (fs.map Vector.toList).flatten

/-- The step S is about to take closes a session that still has bytes to send: they are lost (43_sequencer.md R130). -/
def dropsQueue (s : State) : Prop :=
  s.state = .dispatch ∧ s.refused = false ∧ fetchRequest s = .ok .deinit ∧ s.init = true ∧ s.txf ≠ []

/-- The state in which S takes the next step of the machine, with the draw `d`. -/
def atSeq (d : Draw) (s : State) : State := withDraw d (advance s)

/-- The next step of the machine is H's write of `v` to register `n`, a bare one or the next primitive of its program
(20_memory.md R47; 30_encoding.md R79). -/
def hostWrites (n : RegNum) (v : Word) (s : State) : Prop :=
  nextAgentStep s = .hostWrite n v ∨ (nextAgentStep s = .hostProgram ∧ s.hostProg[s.hostPc]? = some (.write n v))

/-- The host is about to run the line `o` of a program whose lines before it are `pre` and after it `post`. -/
def atLine (pre : List HostOp) (o : HostOp) (post : List HostOp) (s : State) : Prop :=
  s.hostProg = expandProgram (pre ++ o :: post) ∧ s.hostPc = (expandProgram pre).length

/-- In the host's program the label `l` marks, for the first time, the line whose expansion starts at position `p`
(30_encoding.md R80). -/
def labelAt (l : Nat) (p : Nat) (s : State) : Prop :=
  ∃ pre post : List HostOp, s.hostProg = expandProgram (pre ++ .label l :: post) ∧ .label l ∉ pre ∧ p = (expandProgram pre).length

/-- The host stands in the loop of a `wait` at position `p` of its program (30_encoding.md R80): about to read STATUS, or about to
test the DONE bit of a value in which it is 0. -/
def hostWaitsAt (p : Nat) (s : State) : Prop :=
  s.hostProg[p]? = some (.read 0x001#12) ∧
  s.hostProg[p + 1]? = some (.branchIf 2 false (.back 1)) ∧
  (s.hostPc = p ∨ (s.hostPc = p + 1 ∧ s.hostVal.getLsbD 2 = false))

/-! ### Schedules -/

/-- The state after `n` steps of a schedule, if no step stops. -/
def runOn (σ : Nat → AgentStep) (s : State) : Nat → Option State
  | 0 => some s
  | n + 1 =>
    match runOn σ s n with
    | some t =>
      match agentStep (σ n) (advance t) with
      | .next u => some u
      | .fault _ => none
      | .refused _ => none
    | none => none

/-- The step is one of S. -/
def isSeqStep : AgentStep → Bool
  | .seq _ => true
  | _ => false

/-- Weak fairness (00_scope.md R14): again and again, the agent takes its step or is not enabled. -/
def weaklyFair (enabled : State → Bool) (mine : AgentStep → Bool) (σ : Nat → AgentStep) (s : State) : Prop :=
  ∀ n, ∃ m, n ≤ m ∧ ∀ t, runOn σ s m = some t → enabled t = true → mine (σ m) = true

/-- A schedule that is fair to S, LT and TK (00_scope.md R14) and never resets the block. -/
structure FairSchedule (σ : Nat → AgentStep) (s : State) : Prop where
  seq_fair : weaklyFair seqEnabled isSeqStep σ s
  lt_fair : weaklyFair ltEnabled (· == .lineTx) σ s
  tk_fair : weaklyFair tkEnabled (· == .tick) σ s
  no_reset : ∀ n, σ n ≠ .resetInput

end Sys2Proof.Machine
end

