-- ==== Sys2Proof/Certificates/Slice0/Obligations.lean ====
section
/-! DEFINITION. The statements about the model, for the provers. Each docstring names the rule of spec/ it formalises. -/

open Sys2Proof Sys2Proof.Machine

/-! ### Encodings -/

/-- Decoding the code of a well-formed instruction gives it back, for all twenty-five instructions and every SEND_RAW length. -/
def Obligations.DecodeOfEncodeIsTheInstruction : Prop :=
  ∀ i : Instr, i.wellFormed = true → decode (encode i) = .ok i

/-- A request word that decodes is, in bits 11 to 0, the encoding of the instruction it decodes to (30_encoding.md R70, R76). -/
def Obligations.EncodeOfDecodedRequestIsTheWord : Prop :=
  ∀ (w : Word) (i : Instr), decodeRequest w = .ok i → i.wellFormed = true ∧ encode i = .request (w &&& 0x00000FFF#32)

/-- The words of 30_encoding.md R76 decode to their instructions. -/
def Obligations.RequestWordsDecode : Prop :=
  decodeRequest 0x00000100#32 = .ok .init ∧
  decodeRequest 0x00000200#32 = .ok .deinit ∧
  decodeRequest 0x00000311#32 = .ok .sendCommandRedOn ∧
  decodeRequest 0x00000322#32 = .ok .sendCommandYellowSlow ∧
  decodeRequest 0x00000333#32 = .ok .sendCommandGreenBurst ∧
  decodeRequest 0x00000360#32 = .ok .sendCommandLightOff ∧
  decodeRequest 0x00000400#32 = .ok .queryDevices ∧
  decodeRequest 0x00000500#32 = .ok (.sendRaw 0) ∧
  decodeRequest 0x000005FF#32 = .ok (.sendRaw 255) ∧
  decodeFrame [0x01#8, 0x06#8, 0x00#8, 0xC2#8, 0x00#8, 0x13#8, 0x69#8, 0xFB#8, 0x00#8, 0x00#8] = .ok .commandFrameGreenOn ∧
  decodeFrame [0xFF#8, 0x03#8, 0x00#8, 0x3F#8, 0x00#8, 0x00#8, 0x60#8, 0x18#8, 0x00#8, 0x00#8] = .ok .queryFrame

/-- Two words that agree in bits 11 to 0 make the same request (30_encoding.md R70). -/
def Obligations.RequestIgnoresBits31To12 : Prop :=
  ∀ (v w : Word) (s : State), v.extractLsb' 0 12 = w.extractLsb' 0 12 → hostWrite 0x000#12 v s = hostWrite 0x000#12 w s

/-- The checker undoes the encoder, and what it accepts is what the encoder makes: exactly eleven sequences are valid
(41_frame_codec.md R102). -/
def Obligations.CheckerAcceptsExactlyTheEncodedFrames : Prop :=
  (∀ k : Kind, frameCheck (encodeCommand k).toList = .command k) ∧
  frameCheck encodeQuery.toList = .query ∧
  (∀ (f : List Byte) (k : Kind), frameCheck f = .command k → f = (encodeCommand k).toList) ∧
  (∀ f : List Byte, frameCheck f = .query → f = encodeQuery.toList) ∧
  (∀ k l : Kind, encodeCommand k = encodeCommand l → k = l) ∧
  (∀ k : Kind, encodeCommand k ≠ encodeQuery)

/-- ASSEMBLE keeps the payload, puts its checksum behind it low byte first, and ends with two zero bytes, for every payload
(41_frame_codec.md R97, R106). -/
def Obligations.AssembledFrameCarriesPayloadAndChecksum : Prop :=
  ∀ p : Vector Byte 6,
    (assemble p).toList.take 6 = p.toList ∧
    crcOf (assemble p).toList = crc16 p.toList ∧
    (assemble p).toList.drop 8 = [0x00#8, 0x00#8]

/-! ### The checksum -/

/-- The serial generator: after 8k bit steps from the seed the accumulator is the checksum of the first k payload bytes, and
after 48 it is crc16 of the payload (40_crc16.md R88). -/
def Obligations.SerialGeneratorComputesCrc16 : Prop :=
  (∀ (p : Vector Byte 6) (k : Nat), k ≤ 6 →
    crcClocks p.toList (8 * k) crcSeed = { acc := crc16 (p.toList.take k), idx := k, bit := 0 }) ∧
  (∀ p : Vector Byte 6, crcSerial p.toList = { acc := crc16 p.toList, idx := 6, bit := 0 })

/-- The checksums of the eleven payloads (40_crc16.md R92). -/
def Obligations.ChecksumsOfThePayloads : Prop :=
  (allKinds.map fun k => crc16 (kindPayload k).toList) =
    [0x3AE8#16, 0x3BA8#16, 0xFB69#16, 0x2EE8#16, 0x2FA8#16, 0xEF69#16, 0xE2E9#16, 0xE3A9#16, 0x2368#16, 0x1E28#16] ∧
  crc16 queryPayload.toList = 0x1860#16

/-- The residue is zero for every payload; 40_crc16.md R91 relies on it for the eleven frames only. -/
def Obligations.ChecksumResidueIsZero : Prop :=
  ∀ p : Vector Byte 6, crc16 ((assemble p).toList.take 8) = 0x0000#16

/-! ### Host registers -/

/-- STATUS bit by bit, for every state (10_state.md R19), with the eight error codes (60_exceptions.md R148) and the ten state codes
(10_state.md R22). -/
def Obligations.StatusShowsItsFields : Prop :=
  ∀ s : State,
    (hostRead 0x001#12 s).getLsbD 0 = s.init ∧
    (hostRead 0x001#12 s).getLsbD 1 = s.busy ∧
    (hostRead 0x001#12 s).getLsbD 2 = s.done ∧
    (hostRead 0x001#12 s).getLsbD 3 = s.success ∧
    (hostRead 0x001#12 s).extractLsb' 4 3 = errNumber s.err ∧
    (hostRead 0x001#12 s).getLsbD 7 = s.txto ∧
    (hostRead 0x001#12 s).extractLsb' 8 4 = seqCode s.state ∧
    (hostRead 0x001#12 s).getLsbD 12 = s.fault ∧
    (hostRead 0x001#12 s).getLsbD 13 = s.refused ∧
    (hostRead 0x001#12 s).extractLsb' 14 18 = 0#18 ∧
    [ErrCode.noError, .alreadyOpen, .notOpen, .driverError, .partialWrite, .noResponse, .invalidArgument,
      .transportError].map errNumber = [0#3, 1#3, 2#3, 3#3, 4#3, 5#3, 6#3, 7#3] ∧
    [SeqState.idle, .dispatch, .encode, .write, .drain, .flush, .settle, .read, .check, .fallback].map seqCode =
      [0#4, 1#4, 2#4, 3#4, 4#4, 5#4, 6#4, 7#4, 8#4, 9#4]

/-- The host register map (10_state.md R18, R23; 43_sequencer.md R123): a write to a CFG register stores its defined bits and
changes nothing else, and a read returns them with the undefined bits 0; CMD reads the latched request, RESP_LEN the byte count; a
write to any other number but CMD has no effect, and an unassigned number reads 0. Short of a reset, a CFG register changes only by a
host write to its number. -/
def Obligations.HostRegisterMap : Prop :=
  (∀ (n : RegNum) (v : Word) (s : State),
    (hostRead 0x000#12 s).toNat = 256 * s.opL.toNat + s.argL.toNat ∧
    (hostRead 0x002#12 s).toNat = s.respLen.toNat ∧
    hostWrite 0x003#12 v s = { s with cfgPort := v.extractLsb' 0 8 } ∧
    hostWrite 0x004#12 v s = { s with cfgTxPin := v.extractLsb' 0 8 } ∧
    hostWrite 0x005#12 v s = { s with cfgRxPin := v.extractLsb' 0 8 } ∧
    hostWrite 0x006#12 v s = { s with cfgBaud := v } ∧
    hostWrite 0x007#12 v s = { s with cfgSettleMs := v.extractLsb' 0 16 } ∧
    hostRead 0x003#12 (hostWrite 0x003#12 v s) = v &&& 0x000000FF#32 ∧
    hostRead 0x004#12 (hostWrite 0x004#12 v s) = v &&& 0x000000FF#32 ∧
    hostRead 0x005#12 (hostWrite 0x005#12 v s) = v &&& 0x000000FF#32 ∧
    hostRead 0x006#12 (hostWrite 0x006#12 v s) = v ∧
    hostRead 0x007#12 (hostWrite 0x007#12 v s) = v &&& 0x0000FFFF#32 ∧
    (n ≠ 0x000#12 ∧ ¬(0x003 ≤ n.toNat ∧ n.toNat ≤ 0x007) → hostWrite n v s = s) ∧
    ((0x008 ≤ n.toNat ∧ n.toNat < 0x100) ∨ 0x200 ≤ n.toNat → hostRead n s = 0x00000000#32)) ∧
  (∀ s t : State, step s = .next t → nextAgentStep s ≠ .resetInput →
    (t.cfgPort ≠ s.cfgPort → ∃ v, hostWrites 0x003#12 v s ∧ t.cfgPort = v.extractLsb' 0 8) ∧
    (t.cfgTxPin ≠ s.cfgTxPin → ∃ v, hostWrites 0x004#12 v s ∧ t.cfgTxPin = v.extractLsb' 0 8) ∧
    (t.cfgRxPin ≠ s.cfgRxPin → ∃ v, hostWrites 0x005#12 v s ∧ t.cfgRxPin = v.extractLsb' 0 8) ∧
    (t.cfgBaud ≠ s.cfgBaud → ∃ v, hostWrites 0x006#12 v s ∧ t.cfgBaud = v) ∧
    (t.cfgSettleMs ≠ s.cfgSettleMs → ∃ v, hostWrites 0x007#12 v s ∧ t.cfgSettleMs = v.extractLsb' 0 16))

/-- In a state of the block, a read of RESP_BUF[i] below RESP_LEN returns the byte stored there (10_state.md R30). -/
def Obligations.ResponseBytesAreReadable : Prop :=
  ∀ (s : State) (i : Nat), Inv s → i < s.respLen.toNat →
    ∃ b : Byte, cellRead s.respBuf i = some b ∧ (hostRead (BitVec.ofNat 12 (0x100 + i)) s).toNat = b.toNat

/-- A host read changes nothing of the block; it sets only the host's own value (10_state.md R18). -/
def Obligations.HostReadHasNoSideEffect : Prop :=
  ∀ (n : RegNum) (s : State), nextAgentStep s = .hostRead n →
    step s = .next { advance s with hostVal := hostRead n (advance s) }

/-! ### Requests -/

/-- ACCEPT (43_sequencer.md R125): a write to CMD with BUSY = 0. That no byte of RESP_BUF holds a value then is the emptied list of
cells, which is the model's choice (log 3). -/
def Obligations.RequestIsAccepted : Prop :=
  ∀ (v : Word) (s : State), nextAgentStep s = .hostWrite 0x000#12 v → s.busy = false →
    step s = .next { advance s with
      opL := v.extractLsb' 8 4, argL := v.extractLsb' 0 8, busy := true, done := false, success := false, err := .noError,
      txto := false, respLen := 0#9, respBuf := [], state := .dispatch }

/-- A request presented while BUSY = 1 sets FAULT and changes nothing else of the block (43_sequencer.md R124). -/
def Obligations.RequestWhileBusyIsAHostFault : Prop :=
  ∀ (v : Word) (s : State), nextAgentStep s = .hostWrite 0x000#12 v → s.busy = true →
    step s = .next { advance s with fault := true }

/-- S in DISPATCH runs the request that OP_L and ARG_L select (43_sequencer.md R127), and in ENCODE the frame of the latched
request (43_sequencer.md R134), in the state with the listed agent step used up and the environment's draw in place. -/
def Obligations.StepRunsTheDecodedInstruction : Prop :=
  ∀ (d : Draw) (s : State), nextAgentStep s = .seq d → s.refused = false →
    (∀ i : Instr, s.state = .dispatch → decodeOpArg s.opL s.argL = .ok i → step s = exec i (atSeq d s)) ∧
    (∀ k : Kind, s.state = .encode → s.opL = 0x3#4 → s.argL = kindCode k → step s = exec (commandFrameOf k) (atSeq d s)) ∧
    (s.state = .encode → s.opL ≠ 0x3#4 → step s = exec .queryFrame (atSeq d s))

/-- The four refusals of 43_sequencer.md R128 (30_encoding.md R73, R74; 43_sequencer.md R133): REFUSED is set and no other state of the
block changes. -/
def Obligations.MeaninglessRequestIsRefused : Prop :=
  ∀ (d : Draw) (s : State), nextAgentStep s = .seq d → s.state = .dispatch → s.refused = false →
    (s.opL = 0x0#4 ∨ 6 ≤ s.opL.toNat) ∨
    ((s.opL = 0x1#4 ∨ s.opL = 0x2#4 ∨ s.opL = 0x4#4) ∧ s.argL ≠ 0x00#8) ∨
    (s.opL = 0x3#4 ∧ s.argL ∉ [0x11#8, 0x12#8, 0x13#8, 0x21#8, 0x22#8, 0x23#8, 0x31#8, 0x32#8, 0x33#8, 0x60#8]) ∨
    (s.opL = 0x5#4 ∧ s.argL ≠ 0x00#8) →
    step s = .next { atSeq d s with refused := true }

/-- INIT on a closed session with a willing driver opens it, latches the line parameters and empties the queues
(43_sequencer.md R129; 42_transport.md R109). -/
def Obligations.InitOpensTheSession : Prop :=
  ∀ s : State, s.init = false → s.draw.drv = .drvOk →
    exec .init s = .next { s with
      init := true, portS := s.cfgPort, txPinS := s.cfgTxPin, rxPinS := s.cfgRxPin, baudS := s.cfgBaud, txf := [], rxf := [],
      success := true, err := .noError, tmr := 0x00000000#32, busy := false, done := true, state := .idle }

/-- INIT fails with AlreadyOpen on an open session, and with DriverError if the driver fails; the session, the queues and the
wire stay as they were (43_sequencer.md R129; 42_transport.md R108, R110). -/
def Obligations.InitFailsAlreadyOpenOrDriverError : Prop :=
  ∀ s : State,
    (s.init = true → exec .init s = .next { s with
      success := false, err := .alreadyOpen, tmr := 0x00000000#32, busy := false, done := true, state := .idle }) ∧
    (s.init = false → s.draw.drv = .drvFail → exec .init s = .next { s with
      success := false, err := .driverError, tmr := 0x00000000#32, busy := false, done := true, state := .idle })

/-- DEINIT closes an open session and discards both queues; on a closed one it is NotOpen (43_sequencer.md R130). -/
def Obligations.DeinitClosesTheSession : Prop :=
  ∀ s : State,
    (s.init = true → exec .deinit s = .next { s with
      init := false, txf := [], rxf := [],
      success := true, err := .noError, tmr := 0x00000000#32, busy := false, done := true, state := .idle }) ∧
    (s.init = false → exec .deinit s = .next { s with
      success := false, err := .notOpen, tmr := 0x00000000#32, busy := false, done := true, state := .idle })

/-- On an open session each SEND_COMMAND and QUERY_DEVICES goes on to ENCODE and changes nothing else
(43_sequencer.md R131, R132). -/
def Obligations.CommandsAndQueryStartTheExchange : Prop :=
  ∀ s : State, s.init = true →
    ∀ i ∈ [Instr.sendCommandRedOn, .sendCommandYellowOn, .sendCommandGreenOn, .sendCommandRedSlow, .sendCommandYellowSlow,
      .sendCommandGreenSlow, .sendCommandRedBurst, .sendCommandYellowBurst, .sendCommandGreenBurst, .sendCommandLightOff,
      .queryDevices],
      exec i s = .next { s with state := .encode }

/-- On a closed session each SEND_COMMAND and QUERY_DEVICES ends with NotOpen: no write, no flush, no read
(43_sequencer.md R131, R132). -/
def Obligations.CommandsAndQueryNeedAnOpenSession : Prop :=
  ∀ s : State, s.init = false →
    ∀ i ∈ [Instr.sendCommandRedOn, .sendCommandYellowOn, .sendCommandGreenOn, .sendCommandRedSlow, .sendCommandYellowSlow,
      .sendCommandGreenSlow, .sendCommandRedBurst, .sendCommandYellowBurst, .sendCommandGreenBurst, .sendCommandLightOff,
      .queryDevices],
      exec i s = .next { s with
        success := false, err := .notOpen, tmr := 0x00000000#32, busy := false, done := true, state := .idle }

/-- SEND_RAW of length 0 ends with InvalidArgument whatever the session; any other length is refused (43_sequencer.md R133). -/
def Obligations.SendRawIsInvalidOrRefused : Prop :=
  ∀ (len : Nat) (s : State),
    (len = 0 → exec (.sendRaw len) s = .next { s with
      success := false, err := .invalidArgument, tmr := 0x00000000#32, busy := false, done := true, state := .idle }) ∧
    (len ≠ 0 → exec (.sendRaw len) s = .next { s with refused := true })

/-- The eleven frames, byte for byte, each written to FRAME by its ENCODE (41_frame_codec.md R98, R99; 43_sequencer.md R134). That
the CRC registers end as the bit-serial form leaves them is the model's reading (log 12). -/
def Obligations.EncodeWritesTheFrame : Prop :=
  ∀ s : State,
    ∀ p ∈ [
      (Instr.commandFrameRedOn, #v[0x01#8, 0x06#8, 0x00#8, 0xC2#8, 0x00#8, 0x11#8, 0xE8#8, 0x3A#8, 0x00#8, 0x00#8], 0x3AE8#16),
      (.commandFrameYellowOn, #v[0x01#8, 0x06#8, 0x00#8, 0xC2#8, 0x00#8, 0x12#8, 0xA8#8, 0x3B#8, 0x00#8, 0x00#8], 0x3BA8#16),
      (.commandFrameGreenOn, #v[0x01#8, 0x06#8, 0x00#8, 0xC2#8, 0x00#8, 0x13#8, 0x69#8, 0xFB#8, 0x00#8, 0x00#8], 0xFB69#16),
      (.commandFrameRedSlow, #v[0x01#8, 0x06#8, 0x00#8, 0xC2#8, 0x00#8, 0x21#8, 0xE8#8, 0x2E#8, 0x00#8, 0x00#8], 0x2EE8#16),
      (.commandFrameYellowSlow, #v[0x01#8, 0x06#8, 0x00#8, 0xC2#8, 0x00#8, 0x22#8, 0xA8#8, 0x2F#8, 0x00#8, 0x00#8], 0x2FA8#16),
      (.commandFrameGreenSlow, #v[0x01#8, 0x06#8, 0x00#8, 0xC2#8, 0x00#8, 0x23#8, 0x69#8, 0xEF#8, 0x00#8, 0x00#8], 0xEF69#16),
      (.commandFrameRedBurst, #v[0x01#8, 0x06#8, 0x00#8, 0xC2#8, 0x00#8, 0x31#8, 0xE9#8, 0xE2#8, 0x00#8, 0x00#8], 0xE2E9#16),
      (.commandFrameYellowBurst, #v[0x01#8, 0x06#8, 0x00#8, 0xC2#8, 0x00#8, 0x32#8, 0xA9#8, 0xE3#8, 0x00#8, 0x00#8], 0xE3A9#16),
      (.commandFrameGreenBurst, #v[0x01#8, 0x06#8, 0x00#8, 0xC2#8, 0x00#8, 0x33#8, 0x68#8, 0x23#8, 0x00#8, 0x00#8], 0x2368#16),
      (.commandFrameLightOff, #v[0x01#8, 0x06#8, 0x00#8, 0xC2#8, 0x00#8, 0x60#8, 0x28#8, 0x1E#8, 0x00#8, 0x00#8], 0x1E28#16),
      (.queryFrame, #v[0xFF#8, 0x03#8, 0x00#8, 0x3F#8, 0x00#8, 0x00#8, 0x60#8, 0x18#8, 0x00#8, 0x00#8], 0x1860#16)],
      exec p.1 s = .next { s with frame := p.2.1, crc := { acc := p.2.2, idx := 6, bit := 0 }, state := .write }

/-- The frame of all instructions: what none of them writes, and what only INIT, DEINIT or a frame writes. Every response byte
reads as before. -/
def Obligations.InstructionsLeaveTheRestUnchanged : Prop :=
  ∀ (i : Instr) (s t : State), exec i s = .next t →
    (t.opL = s.opL ∧ t.argL = s.argL ∧ t.txto = s.txto ∧ t.fault = s.fault ∧ t.respLen = s.respLen ∧
      (∀ a : Nat, cellRead t.respBuf a = cellRead s.respBuf a) ∧
      t.cfgPort = s.cfgPort ∧ t.cfgTxPin = s.cfgTxPin ∧ t.cfgRxPin = s.cfgRxPin ∧ t.cfgBaud = s.cfgBaud ∧
      t.cfgSettleMs = s.cfgSettleMs ∧ t.wireTx = s.wireTx) ∧
    (i ≠ .init → t.portS = s.portS ∧ t.txPinS = s.txPinS ∧ t.rxPinS = s.rxPinS ∧ t.baudS = s.baudS) ∧
    (i ≠ .init → i ≠ .deinit → t.init = s.init ∧ t.txf = s.txf ∧ t.rxf = s.rxf) ∧
    ((∃ w, encode i = .request w) → t.frame = s.frame ∧ t.crc = s.crc) ∧
    ((∃ f, encode i = .frame f) → t.busy = s.busy ∧ t.done = s.done ∧ t.success = s.success ∧ t.err = s.err ∧
      t.refused = s.refused ∧ t.tmr = s.tmr) ∧
    ((∀ n, i ≠ .sendRaw n) → t.refused = s.refused)

/-! ### The exchange states -/

/-- WRITE with a full write: the frame enters TXF and the timer is loaded with DRAIN_TICKS (43_sequencer.md R135; 00_scope.md R8). -/
def Obligations.FullWriteQueuesTheFrame : Prop :=
  ∀ (d : Draw) (s : State), nextAgentStep s = .seq d → s.state = .write → s.refused = false → s.init = true →
    s.params.legal = true → s.txf.length + 10 ≤ s.params.txDepth → d.wr = .ok 10 →
    step s = .next { atSeq d s with
      txf := s.txf ++ s.frame.toList, tmr := BitVec.ofNat 32 (s.params.drainTimeoutMs * s.params.ticksPerMs), state := .drain } ∧
    (BitVec.ofNat 32 (s.params.drainTimeoutMs * s.params.ticksPerMs)).toNat = s.params.drainTimeoutMs * s.params.ticksPerMs

/-- WRITE with a short write or a transport error: the first bytes enter TXF, the request fails, and the session stays open
(43_sequencer.md R135). -/
def Obligations.ShortOrFailedWriteEndsTheRequest : Prop :=
  ∀ (d : Draw) (n : Fin 11) (s : State), nextAgentStep s = .seq d → s.state = .write → s.refused = false → s.init = true →
    s.params.legal = true → s.txf.length + 10 ≤ s.params.txDepth →
    (d.wr = .ok n → n.val < 10 → step s = .next { atSeq d s with
      txf := s.txf ++ s.frame.toList.take n.val,
      success := false, err := .partialWrite, tmr := 0x00000000#32, busy := false, done := true, state := .idle }) ∧
    (d.wr = .err n → step s = .next { atSeq d s with
      txf := s.txf ++ s.frame.toList.take n.val,
      success := false, err := .transportError, tmr := 0x00000000#32, busy := false, done := true, state := .idle })

/-- S waits in WRITE without room for a frame, in DRAIN while bytes are queued and the timer runs, in SETTLE while it runs, in
READ while it runs and nothing is queued, and after a refusal (43_sequencer.md R142, R128). -/
def Obligations.SequencerWaits : Prop :=
  ∀ (d : Draw) (s : State), nextAgentStep s = .seq d →
    (s.state = .write ∧ s.params.txDepth < s.txf.length + 10) ∨
    (s.state = .drain ∧ s.txf ≠ [] ∧ s.tmr ≠ 0x00000000#32) ∨
    (s.state = .settle ∧ s.tmr ≠ 0x00000000#32) ∨
    (s.state = .read ∧ s.rxf = [] ∧ s.tmr ≠ 0x00000000#32) ∨
    s.state = .idle ∨ s.refused = true →
    step s = .next (atSeq d s)

/-- DRAIN on the command path ends the request with success; a timeout with bytes still queued sets TXTO
(43_sequencer.md R136). -/
def Obligations.DrainEndsACommand : Prop :=
  ∀ (d : Draw) (s : State), nextAgentStep s = .seq d → s.state = .drain → s.refused = false → s.init = true → s.opL = 0x3#4 →
    (s.txf = [] → step s = .next { atSeq d s with
      success := true, err := .noError, tmr := 0x00000000#32, busy := false, done := true, state := .idle }) ∧
    (s.txf ≠ [] → s.tmr = 0x00000000#32 → step s = .next { atSeq d s with
      txto := true,
      success := true, err := .noError, tmr := 0x00000000#32, busy := false, done := true, state := .idle })

/-- DRAIN on the query path goes on to FLUSH, with TXTO set on a timeout; FLUSH empties RXF and loads SETTLE_TICKS
(43_sequencer.md R136, R137). -/
def Obligations.DrainAndFlushOfAQuery : Prop :=
  ∀ (d : Draw) (s : State), nextAgentStep s = .seq d → s.refused = false → s.init = true →
    (s.state = .drain → s.opL = 0x4#4 → s.txf = [] → step s = .next { atSeq d s with state := .flush }) ∧
    (s.state = .drain → s.opL = 0x4#4 → s.txf ≠ [] → s.tmr = 0x00000000#32 →
      step s = .next { atSeq d s with txto := true, state := .flush }) ∧
    (s.state = .flush → s.params.legal = true →
      step s = .next { atSeq d s with
        rxf := [], tmr := BitVec.ofNat 32 (s.cfgSettleMs.toNat * s.params.ticksPerMs), state := .settle } ∧
      (BitVec.ofNat 32 (s.cfgSettleMs.toNat * s.params.ticksPerMs)).toNat = s.cfgSettleMs.toNat * s.params.ticksPerMs)

/-- SETTLE at the end of its delay loads READ_TICKS, 1000 ms, and goes on to READ; RXF is not touched (43_sequencer.md R138). -/
def Obligations.SettleStartsTheTimedRead : Prop :=
  ∀ (d : Draw) (s : State), nextAgentStep s = .seq d → s.state = .settle → s.refused = false → s.params.legal = true →
    s.tmr = 0x00000000#32 →
    step s = .next { atSeq d s with tmr := BitVec.ofNat 32 (1000 * s.params.ticksPerMs), state := .read } ∧
    (BitVec.ofNat 32 (1000 * s.params.ticksPerMs)).toNat = 1000 * s.params.ticksPerMs

/-- READ with bytes queued and no transport error, and FALLBACK likewise, take the first 256 of them: RESP_BUF holds them in
order, every other index reads as before, RXF loses them, and the query succeeds (43_sequencer.md R139, R141). -/
def Obligations.ReadCapturesTheQueuedBytes : Prop :=
  ∀ (d : Draw) (s : State), nextAgentStep s = .seq d → s.state = .read ∨ s.state = .fallback → s.refused = false →
    s.init = true → d.rd = .rdOk → s.rxf ≠ [] →
    ∃ m : Memory,
      step s = .next { atSeq d s with
        respBuf := m, respLen := BitVec.ofNat 9 (min s.rxf.length 256), rxf := s.rxf.drop (min s.rxf.length 256),
        success := true, err := .noError, tmr := 0x00000000#32, busy := false, done := true, state := .idle } ∧
      (BitVec.ofNat 9 (min s.rxf.length 256)).toNat = min s.rxf.length 256 ∧
      (∀ i : Nat, i < min s.rxf.length 256 → cellRead m i = s.rxf[i]?) ∧
      (∀ i : Nat, min s.rxf.length 256 ≤ i → cellRead m i = cellRead s.respBuf i)

/-- Without bytes: READ that times out with nothing queued, or whose transport fails once it is enabled, goes to CHECK and takes
nothing; CHECK goes to FALLBACK if bytes are queued and else ends with NoResponse; FALLBACK ends with NoResponse on a read error
or without bytes (43_sequencer.md R139, R140, R141). -/
def Obligations.FallbackPathOfAQuery : Prop :=
  ∀ (d : Draw) (s : State), nextAgentStep s = .seq d → s.refused = false → s.init = true →
    (s.state = .read →
      (s.rxf = [] ∧ s.tmr = 0x00000000#32) ∨ (d.rd = .rdErr ∧ (s.rxf ≠ [] ∨ s.tmr = 0x00000000#32)) →
      step s = .next { atSeq d s with state := .check }) ∧
    (s.state = .check → s.rxf ≠ [] → step s = .next { atSeq d s with state := .fallback }) ∧
    ((s.state = .check ∧ s.rxf = []) ∨ (s.state = .fallback ∧ (s.rxf = [] ∨ d.rd = .rdErr)) →
      step s = .next { atSeq d s with
        success := false, err := .noResponse, tmr := 0x00000000#32, busy := false, done := true, state := .idle })

/-- The steps that read a parameter refuse a configuration outside the constraints (10_state.md R25; 92_eei_decisions.md D12).
That these steps are the ones that notice it is the model's reading (log 7). -/
def Obligations.IllegalConfigurationIsRefused : Prop :=
  ∀ (d : Draw) (s : State), nextAgentStep s = .seq d → s.refused = false → s.params.legal = false →
    (s.state = .write ∧ s.txf.length + 10 ≤ s.params.txDepth) ∨ s.state = .flush ∨ (s.state = .settle ∧ s.tmr = 0x00000000#32) →
    step s = .refused .configuration

/-! ### LT, RD, TK and the reset input -/

/-- LT moves the head of TXF of an open session to the end of WIRE_TX; with nothing to send it does nothing
(42_transport.md R118). -/
def Obligations.LineTransmitterSendsTheHead : Prop :=
  ∀ s : State, nextAgentStep s = .lineTx →
    (∀ (b : Byte) (rest : List Byte), s.init = true → s.txf = b :: rest →
      step s = .next { advance s with txf := rest, wireTx := s.wireTx ++ [b] }) ∧
    (s.init = false ∨ s.txf = [] → step s = .next (advance s))

/-- RD appends the drawn byte to RXF, loses it when RXF is full, and does nothing on a closed session (42_transport.md R119).
On an open session the parameters are legal (log 7). -/
def Obligations.ReceiveAppendsOrLosesTheByte : Prop :=
  ∀ (b : Byte) (s : State), nextAgentStep s = .receive b →
    (s.init = true → s.params.legal = true → s.rxf.length < s.params.rxDepth →
      step s = .next { advance s with rxf := s.rxf ++ [b] }) ∧
    (s.init = true → s.params.legal = true → s.params.rxDepth ≤ s.rxf.length → step s = .next (advance s)) ∧
    (s.init = false → step s = .next (advance s))

/-- TK counts a running timer down by one and never below 0 (42_transport.md R120). -/
def Obligations.TickCountsDown : Prop :=
  ∀ s : State, nextAgentStep s = .tick →
    (s.tmr = 0x00000000#32 → step s = .next (advance s)) ∧
    (s.tmr ≠ 0x00000000#32 → ∃ t : State, step s = .next t ∧ t = { advance s with tmr := t.tmr } ∧ t.tmr.toNat + 1 = s.tmr.toNat)

/-- The values the spec gives for reset (10_state.md R36). -/
def Obligations.ResetValues : Prop :=
  statusWord State.reset = 0x00000000#32 ∧ State.reset.opL = 0x0#4 ∧ State.reset.argL = 0x00#8 ∧
  State.reset.cfgPort = 0x00#8 ∧ State.reset.cfgTxPin = 0x00#8 ∧ State.reset.cfgRxPin = 0x00#8 ∧
  State.reset.cfgBaud = 0x00000000#32 ∧ State.reset.cfgSettleMs = 10#16 ∧ State.reset.respLen = 0#9 ∧
  (∀ i : Nat, memRead i State.reset = none) ∧
  State.reset.crc = { acc := 0xFFFF#16, idx := 0, bit := 0 } ∧ State.reset.tmr = 0x00000000#32 ∧
  State.reset.txf = [] ∧ State.reset.rxf = [] ∧ State.reset.wireTx = []

/-- The reset input puts every element of the block at its reset value, in any state, an exchange in progress or not
(70_reset_and_hazards.md R166, R168). The zeros of FRAME and of the session registers (logs 4, 5), and what is not the block's and stays
(log 13), are the model's choice. -/
def Obligations.ResetInputRestoresTheBlock : Prop :=
  ∀ s : State, nextAgentStep s = .resetInput →
    step s = .next { State.reset with
      params := s.params, env := s.env.tail, eventNo := s.eventNo + 1, draw := s.draw,
      hostProg := s.hostProg, hostPc := s.hostPc, hostVal := s.hostVal }

/-- From reset, whatever the environment, a step that is not the host's changes nothing of the block: LT, RD, TK and S are not
enabled, and the reset input finds its own result (70_reset_and_hazards.md R167). FRAME and the session registers hold the model's zeros
throughout (logs 4, 5). -/
def Obligations.OnlyTheHostStepsAfterReset : Prop :=
  ∀ (d : Draw) (b : Byte) (env : List AgentStep) (n : Nat),
    ∀ a ∈ [AgentStep.seq d, .lineTx, .receive b, .tick, .resetInput],
      ∃ e : Draw, step { State.reset with env := a :: env, eventNo := n } =
        .next { State.reset with env := env, eventNo := n + 1, draw := e }

/-! ### The whole machine -/

/-- The state right after reset is a state of the block. -/
def Obligations.ResetMeetsTheInvariant : Prop := Inv State.reset

/-- Every step of every agent, with every draw, leads from a state of the block to a state of the block. -/
def Obligations.EveryStepKeepsTheInvariant : Prop :=
  ∀ s t : State, Inv s → step s = .next t → Inv t

/-- In a state of the block no step stops: there is no fault and no refusal of the model (60_exceptions.md R150, R156). -/
def Obligations.EveryStepOfABlockAnswersANextState : Prop :=
  ∀ s : State, Inv s → ∃ t : State, step s = .next t

/-- Every step keeps the canonical form of the response buffer, from any state. -/
def Obligations.EveryStepKeepsTheBufferCanonical : Prop :=
  ∀ s t : State, s.respBuf.wf = true → step s = .next t → t.respBuf.wf = true

/-- FAULT and REFUSED stay set until a reset (10_state.md R20). -/
def Obligations.FaultAndRefusedAreSticky : Prop :=
  ∀ s t : State, step s = .next t → nextAgentStep s ≠ .resetInput →
    (s.fault = true → t.fault = true) ∧ (s.refused = true → t.refused = true)

/-- After a refusal the block is stuck until a reset: BUSY stays 1, DONE stays 0, STATE stays DISPATCH, and the latched request
stays (43_sequencer.md R128). -/
def Obligations.RefusedBlockIsStuck : Prop :=
  ∀ s t : State, Inv s → s.refused = true → step s = .next t → nextAgentStep s ≠ .resetInput →
    t.refused = true ∧ t.busy = true ∧ t.done = false ∧ t.state = .dispatch ∧ t.opL = s.opL ∧ t.argL = s.argL

/-- STATE moves only along the edges of 43_sequencer.md R142: S takes an edge of the table for OP_L or waits, a host write to
CMD (bare, or by the host's program) moves IDLE to DISPATCH, the reset input moves to IDLE, and no other step moves it. -/
def Obligations.StateMovesAlongTheEdges : Prop :=
  ∀ s t : State, Inv s → step s = .next t →
    t.state = s.state ∨
    ((∃ d, nextAgentStep s = .seq d) ∧ t.state ∈ seqEdges s.opL s.state) ∨
    ((∃ v, hostWrites 0x000#12 v s) ∧ s.state = .idle ∧ t.state = .dispatch) ∨
    (nextAgentStep s = .resetInput ∧ t.state = .idle)

/-- No loop in the FSM: every enabled sequencer step that does not refuse lowers the number of steps left, which is at most 9;
no other step of the exchange raises it (43_sequencer.md R145). -/
def Obligations.ExchangeTakesAtMostNineSteps : Prop :=
  ∀ s t : State, Inv s → step s = .next t →
    stepsLeft s.state ≤ 9 ∧
    ((∃ d, nextAgentStep s = .seq d) → seqEnabled s = true → t.refused = true ∨ stepsLeft t.state < stepsLeft s.state) ∧
    (s.busy = true → stepsLeft t.state ≤ stepsLeft s.state)

/-- Only INIT and DEINIT, run by S, and the reset input change STATUS.INIT or the session registers (10_state.md R27, R34). -/
def Obligations.SessionChangesOnlyByInitDeinitReset : Prop :=
  ∀ s t : State, step s = .next t → nextAgentStep s ≠ .resetInput →
    (t.init ≠ s.init → (∃ d, nextAgentStep s = .seq d) ∧ s.state = .dispatch ∧
      (s.opL = 0x1#4 ∧ t.init = true ∨ s.opL = 0x2#4 ∧ t.init = false)) ∧
    (t.portS ≠ s.portS ∨ t.txPinS ≠ s.txPinS ∨ t.rxPinS ≠ s.rxPinS ∨ t.baudS ≠ s.baudS →
      (∃ d, nextAgentStep s = .seq d) ∧ s.state = .dispatch ∧ s.opL = 0x1#4 ∧ s.init = false)

/-- Bytes enter TXF only from FRAME, by a step of S in WRITE, for a command or a query (20_memory.md R48, R57). -/
def Obligations.OnlyWriteQueuesBytes : Prop :=
  ∀ s t : State, Inv s → step s = .next t →
    t.txf <:+ s.txf ∨
    ((∃ d, nextAgentStep s = .seq d) ∧ s.state = .write ∧ (s.opL = 0x3#4 ∨ s.opL = 0x4#4) ∧
      ∃ n : Nat, n ≤ 10 ∧ t.txf = s.txf ++ s.frame.toList.take n)

/-- No step but LT's adds to WIRE_TX, and LT adds the head of TXF; short of a reset, nothing on the wire changes
(20_memory.md R48, R60; 42_transport.md R118). -/
def Obligations.WireGrowsOnlyFromTheQueue : Prop :=
  ∀ s t : State, step s = .next t → nextAgentStep s ≠ .resetInput →
    t.wireTx = s.wireTx ∨
    (nextAgentStep s = .lineTx ∧ s.init = true ∧ ∃ b : Byte, s.txf = b :: t.txf ∧ t.wireTx = s.wireTx ++ [b])

/-- On a bus whose writes are all full, and whose sessions are closed only with nothing left to send, what is on the wire and
what is queued behind it are whole valid frames (41_frame_codec.md R104). -/
def Obligations.WireCarriesWholeValidFrames : Prop :=
  ∀ s t : State, Inv s → wholeFrames (s.wireTx ++ s.txf) → step s = .next t →
    (∀ d : Draw, nextAgentStep s = .seq d → d.wr = .ok 10 ∧ ¬ dropsQueue s) →
    wholeFrames (t.wireTx ++ t.txf)

/-- A request that does not succeed shows no response, and a response belongs to a query (43_sequencer.md R147), after any number
of steps from reset, whatever the environment does. -/
def Obligations.FailuresShowNoResponse : Prop :=
  ∀ (n : Nat) (env : List AgentStep) (t : State), Sys2Proof.core.run n { State.reset with env := env } = .next t →
    Inv t ∧ (t.success = false → t.respLen = 0#9 ∧ ∀ i : Nat, memRead i t = none)

/-- Under a schedule fair to S, LT and TK, every accepted request that is not refused reaches DONE (00_scope.md R14;
43_sequencer.md R145). -/
def Obligations.FairScheduleReachesDone : Prop :=
  ∀ (σ : Nat → AgentStep) (s : State), Inv s → s.busy = true → FairSchedule σ s →
    ∃ (n : Nat) (t : State), runOn σ s n = some t ∧ (t.done = true ∨ t.refused = true)

/-- One command from its acceptance to its end on a healthy transport: the ten bytes of its frame follow what was on the wire, and
the request succeeds without a warning (43_sequencer.md R143). -/
def Obligations.HealthyCommandSendsItsFrame : Prop :=
  ∀ (k : Kind) (d₁ d₂ d₃ d₄ : Draw) (rest : List AgentStep) (s : State),
    Inv s → s.busy = false → s.init = true → s.txf = [] → d₃.wr = .ok 10 →
    s.env = [AgentStep.hostWrite 0x000#12 (0x00000300#32 ||| (kindCode k).setWidth 32), AgentStep.seq d₁, AgentStep.seq d₂,
      AgentStep.seq d₃] ++ List.replicate 10 AgentStep.lineTx ++ [AgentStep.seq d₄] ++ rest →
    ∃ t : State, Sys2Proof.core.run 15 s = .next t ∧
      t.wireTx = s.wireTx ++ (encodeCommand k).toList ∧ t.txf = [] ∧ t.rxf = s.rxf ∧ t.respLen = 0#9 ∧ t.env = rest ∧
      t.init = true ∧ t.busy = false ∧ t.done = true ∧ t.success = true ∧ t.err = .noError ∧ t.txto = false ∧ t.state = .idle

/-- One query from its acceptance to its end on a healthy transport, its reply arriving during the settle delay: RESP_BUF holds
the reply, whatever its bytes, and the query frame follows what was on the wire (43_sequencer.md R144, READ finds bytes). -/
def Obligations.HealthyQueryCapturesTheReply : Prop :=
  ∀ (reply : List Byte) (d₁ d₂ d₃ d₄ d₅ d₆ d₇ : Draw) (rest : List AgentStep) (s : State),
    Inv s → s.busy = false → s.init = true → s.txf = [] → d₃.wr = .ok 10 → d₇.rd = .rdOk →
    reply ≠ [] → reply.length ≤ 256 →
    s.env = [AgentStep.hostWrite 0x000#12 0x00000400#32, AgentStep.seq d₁, AgentStep.seq d₂, AgentStep.seq d₃] ++
      List.replicate 10 AgentStep.lineTx ++ [AgentStep.seq d₄, AgentStep.seq d₅] ++ reply.map AgentStep.receive ++
      List.replicate (s.cfgSettleMs.toNat * s.params.ticksPerMs) AgentStep.tick ++ [AgentStep.seq d₆, AgentStep.seq d₇] ++ rest →
    ∃ t : State,
      Sys2Proof.core.run (18 + reply.length + s.cfgSettleMs.toNat * s.params.ticksPerMs) s = .next t ∧
      t.wireTx = s.wireTx ++ encodeQuery.toList ∧ t.txf = [] ∧ t.rxf = [] ∧ t.env = rest ∧
      t.respLen.toNat = reply.length ∧ (∀ i : Nat, i < reply.length → memRead i t = reply[i]?) ∧
      t.init = true ∧ t.busy = false ∧ t.done = true ∧ t.success = true ∧ t.err = .noError ∧ t.txto = false ∧
      t.state = .idle ∧ t.tmr = 0x00000000#32

/-! ### Host programs -/

/-- The two steps of a `wait`: STATUS is read, and the host goes on exactly if DONE was 1 (30_encoding.md R80). -/
def Obligations.HostWaitPollsDone : Prop :=
  ∀ (p : Nat) (s : State), s.hostPc = p → s.hostProg[p]? = some (.read 0x001#12) →
    s.hostProg[p + 1]? = some (.branchIf 2 false (.back 1)) →
    hostProgramStep (hostProgramStep s) = { s with
      hostVal := statusWord s, hostPc := if s.done = true then p + 2 else p }

/-- A `wait` never ends once the block has refused: a host that only runs its program stays in its loop at every step that is
no reset (30_encoding.md R81). -/
def Obligations.WaitNeverEndsAfterARefusal : Prop :=
  ∀ (p : Nat) (s t : State), Inv s → s.refused = true → hostWaitsAt p s → step s = .next t →
    nextAgentStep s ≠ .resetInput → (∀ n, nextAgentStep s ≠ .hostRead n) →
    t.refused = true ∧ t.done = false ∧ hostWaitsAt p t

/-- The host-program lines that write CMD (30_encoding.md R79), at any place of any program: every kind, every length of
`send_raw`, every word of `cmd`. -/
def Obligations.HostProgramLinesWriteTheirRequest : Prop :=
  ∀ (pre post : List HostOp) (s : State),
    (atLine pre .init post s → hostProgramStep s = { hostWrite 0x000#12 0x00000100#32 s with hostPc := s.hostPc + 1 }) ∧
    (atLine pre .deinit post s → hostProgramStep s = { hostWrite 0x000#12 0x00000200#32 s with hostPc := s.hostPc + 1 }) ∧
    (∀ p ∈ [(Kind.redOn, 0x00000311#32), (.yellowOn, 0x00000312#32), (.greenOn, 0x00000313#32), (.redSlow, 0x00000321#32),
        (.yellowSlow, 0x00000322#32), (.greenSlow, 0x00000323#32), (.redBurst, 0x00000331#32), (.yellowBurst, 0x00000332#32),
        (.greenBurst, 0x00000333#32), (.lightOff, 0x00000360#32)],
      atLine pre (.sendCommand p.1) post s → hostProgramStep s = { hostWrite 0x000#12 p.2 s with hostPc := s.hostPc + 1 }) ∧
    (atLine pre .queryDevices post s → hostProgramStep s = { hostWrite 0x000#12 0x00000400#32 s with hostPc := s.hostPc + 1 }) ∧
    (∀ n : Nat, n < 256 → atLine pre (.sendRaw n) post s →
      hostProgramStep s = { hostWrite 0x000#12 (BitVec.ofNat 32 (0x500 + n)) s with hostPc := s.hostPc + 1 }) ∧
    (∀ v : Word, atLine pre (.cmd v) post s → hostProgramStep s = { hostWrite 0x000#12 v s with hostPc := s.hostPc + 1 })

/-- The pseudo-instructions of 30_encoding.md R80 but `wait`, at any place of any program: `cfg` is four register writes, `settle` one;
`bfail` and `bok` read STATUS and go to the label if SUCCESS is 0, or 1, and else on; `jmp` goes to the label; `halt` goes nowhere; a
label is passed over. That labels are numbers is the model's choice (log 14). -/
def Obligations.HostPseudoInstructionsRunAsExpanded : Prop :=
  ∀ (pre post : List HostOp) (s : State),
    (∀ p t r b : Word, atLine pre (.cfg p t r b) post s →
      hostProgramStep (hostProgramStep (hostProgramStep (hostProgramStep s))) =
        { hostWrite 0x006#12 b (hostWrite 0x005#12 r (hostWrite 0x004#12 t (hostWrite 0x003#12 p s))) with
          hostPc := s.hostPc + 4 }) ∧
    (∀ ms : Word, atLine pre (.settle ms) post s →
      hostProgramStep s = { hostWrite 0x007#12 ms s with hostPc := s.hostPc + 1 }) ∧
    (∀ l q : Nat, labelAt l q s →
      (atLine pre (.bfail l) post s → hostProgramStep (hostProgramStep s) =
        { s with hostVal := statusWord s, hostPc := if s.success = false then q else s.hostPc + 2 }) ∧
      (atLine pre (.bok l) post s → hostProgramStep (hostProgramStep s) =
        { s with hostVal := statusWord s, hostPc := if s.success = true then q else s.hostPc + 2 }) ∧
      (atLine pre (.jmp l) post s → hostProgramStep s = { s with hostPc := q })) ∧
    (atLine pre .halt post s → hostProgramStep s = s) ∧
    (∀ l : Nat, atLine pre (.label l) post s → hostProgramStep s = { s with hostPc := s.hostPc + 1 })
end

