-- ==== Sys2Proof/Laws/Config.lean ====
section
/-! SUPPORT. The parameters of a block that is reset are legal, and every legal parameter set is one of them. -/

namespace Sys2Proof

/-- The constraints, with the fixed timeouts' values in place. -/
theorem Params.legal_iff (p : Params) :
    p.legal = true ↔ 1 ≤ p.ticksPerMs ∧ p.ticksPerMs * max 65535 p.drainTimeoutMs < 2 ^ 32 ∧ 257 ≤ p.rxDepth ∧ 10 ≤ p.txDepth := by
  have hm : max readTimeoutMs (max 65535 p.drainTimeoutMs) = max 65535 p.drainTimeoutMs :=
    max_eq_right (le_trans (by decide) (le_max_left _ _))
  unfold Params.legal
  rw [hm]
  constructor
  · intro h
    simp only [Bool.and_eq_true, decide_eq_true_eq, and_assoc] at h
    exact h
  · intro h
    simp only [Bool.and_eq_true, decide_eq_true_eq, and_assoc]
    exact h

/-- The parameters made from any five numbers are legal. -/
theorem paramsOf_legal (ticks drain rx tx base : Nat) : (Config.paramsOf ticks drain rx tx base).legal = true := by
  rw [Params.legal_iff]
  simp only [Config.paramsOf, respCap, frameLen]
  have ht : 1 + ticks % 65537 ≤ 65537 := by have := Nat.mod_lt ticks (show 0 < 65537 by decide); omega
  have h1 : 1 ≤ 1 + ticks % 65537 := Nat.le_add_right _ _
  revert ht h1
  generalize 1 + ticks % 65537 = t
  intro ht h1
  have hq : drain % ((2 ^ 32 - 1) / t + 1) ≤ (2 ^ 32 - 1) / t := Nat.lt_succ_iff.1 (Nat.mod_lt _ (Nat.succ_pos _))
  revert hq
  generalize drain % ((2 ^ 32 - 1) / t + 1) = q
  intro hq
  have h2 : t * q ≤ 2 ^ 32 - 1 := le_trans (Nat.mul_le_mul_left t hq) (Nat.mul_div_le _ _)
  have h3 : t * 65535 ≤ 65537 * 65535 := Nat.mul_le_mul_right _ ht
  refine ⟨h1, ?_, by omega, by omega⟩
  rcases le_total 65535 q with h | h
  · rw [max_eq_right h]; omega
  · rw [max_eq_left h]; omega

/-- Every legal parameter set is made from some five numbers. -/
theorem paramsOf_onto (p : Params) (h : p.legal = true) :
    ∃ ticks drain rx tx base, Config.paramsOf ticks drain rx tx base = p := by
  obtain ⟨h1, h2, h3, h4⟩ := (Params.legal_iff p).1 h
  obtain ⟨t, d, r, x, b⟩ := p
  simp only at h1 h2 h3 h4
  have ht : t * 65535 < 2 ^ 32 := lt_of_le_of_lt (Nat.mul_le_mul_left t (le_max_left ..)) h2
  have hd : t * d < 2 ^ 32 := lt_of_le_of_lt (Nat.mul_le_mul_left t (le_max_right ..)) h2
  have htm : 1 + (t - 1) % 65537 = t := by rw [Nat.mod_eq_of_lt (by omega)]; omega
  have hdd : d ≤ (2 ^ 32 - 1) / t := (Nat.le_div_iff_mul_le (by omega)).2 (by rw [Nat.mul_comm]; omega)
  have hdm : d % ((2 ^ 32 - 1) / t + 1) = d := Nat.mod_eq_of_lt (Nat.lt_succ_iff.2 hdd)
  refine ⟨t - 1, d, r - 257, x - 10, b, ?_⟩
  unfold Config.paramsOf
  rw [htm]
  dsimp only
  rw [hdm, show respCap + 1 + (r - 257) = r by unfold respCap; omega, show frameLen + (x - 10) = x by unfold frameLen; omega]

end Sys2Proof
end

