-- ==== Sys2Proof/Laws/Crc16.lean ====
section
/-! SUPPORT. Lemmas about the CRC16 generator. -/

namespace Sys2Proof.Machine

@[simp] theorem crcFold_nil (acc : Half) : crcFold acc [] = acc := rfl

@[simp] theorem crcFold_cons (acc : Half) (b : Byte) (data : List Byte) :
    crcFold acc (b :: data) = crcFold (crcByte acc b) data := rfl

theorem crcFold_append (acc : Half) (xs ys : List Byte) : crcFold acc (xs ++ ys) = crcFold (crcFold acc xs) ys := by
  simp [crcFold, List.foldl_append]

@[simp] theorem crcBitSteps_zero (acc : Half) : crcBitSteps 0 acc = acc := rfl

@[simp] theorem crcBitSteps_succ (n : Nat) (acc : Half) : crcBitSteps (n + 1) acc = crcBitSteps n (crcBitStep acc) := rfl

@[simp] theorem crcClocks_zero (p : List Byte) (g : CrcGen) : crcClocks p 0 g = g := rfl

@[simp] theorem crcClocks_succ (p : List Byte) (n : Nat) (g : CrcGen) :
    crcClocks p (n + 1) g = crcClocks p n (crcClock p g) := rfl

theorem crcClocks_add (p : List Byte) (m n : Nat) (g : CrcGen) : crcClocks p (m + n) g = crcClocks p n (crcClocks p m g) := by
  induction m generalizing g with
  | zero => simp
  | succ m ih => rw [Nat.succ_add]; simp [ih]

/-- A bit step keeps the index in 0 to 6 and the bit count in 0 to 7. -/
theorem crcClock_range (p : List Byte) (g : CrcGen) (hi : g.idx ≤ 6) (hb : g.bit ≤ 7) :
    (crcClock p g).idx ≤ 6 ∧ (crcClock p g).bit ≤ 7 := by
  unfold crcClock
  split
  · dsimp only
    split <;> constructor <;> dsimp only <;> omega
  · exact ⟨hi, hb⟩

theorem crcClocks_range (p : List Byte) (n : Nat) (g : CrcGen) (hi : g.idx ≤ 6) (hb : g.bit ≤ 7) :
    (crcClocks p n g).idx ≤ 6 ∧ (crcClocks p n g).bit ≤ 7 := by
  induction n generalizing g with
  | zero => exact ⟨hi, hb⟩
  | succ n ih => exact ih _ (crcClock_range p g hi hb).1 (crcClock_range p g hi hb).2

/-- The registers after ENCODE are in their ranges (10_state.md R26). -/
theorem crcSerial_range (p : List Byte) : (crcSerial p).idx ≤ 6 ∧ (crcSerial p).bit ≤ 8 := by
  have h := crcClocks_range p 48 crcSeed (by decide) (by decide)
  exact ⟨h.1, Nat.le_succ_of_le h.2⟩

end Sys2Proof.Machine
end

