-- ==== Sys2Proof/Laws/Decode.lean ====
section
/-! SUPPORT. Lemmas about the encodings. -/

namespace Sys2Proof

open Machine

@[simp] theorem kindOf_kindCode (k : Kind) : kindOf (kindCode k) = some k := by cases k <;> decide

/-- A byte stands for a kind only as that kind's opcode. -/
theorem kindCode_of_kindOf {b : Byte} {k : Kind} (h : kindOf b = some k) : b = kindCode k := by
  have := List.find?_some h
  exact (beq_iff_eq.1 this).symm

/-- A request word made of a four-bit operation and an argument reads back as both. -/
theorem requestOp_word (op : BitVec 4) (arg : Byte) : requestOp ((op.setWidth 32 <<< 8) ||| arg.setWidth 32) = op := by
  apply BitVec.eq_of_getLsbD_eq
  intro i hi
  simp [requestOp]
  rcases (by omega : i = 0 ∨ i = 1 ∨ i = 2 ∨ i = 3) with rfl | rfl | rfl | rfl <;> simp

theorem requestArg_word (op : BitVec 4) (arg : Byte) : requestArg ((op.setWidth 32 <<< 8) ||| arg.setWidth 32) = arg := by
  apply BitVec.eq_of_getLsbD_eq
  intro i hi
  simp [requestArg, show i < 32 by omega, show i < 8 by omega]

end Sys2Proof
end

