-- ==== Sys2Proof/Laws/State.lean ====
section
/-! SUPPORT. What each named update does to each field of the state: one lemma for each, true by unfolding. -/

namespace Sys2Proof.Machine

/-! ### accept -/

@[simp] theorem accept_init (v : Word) (s : State) : (accept v s).init = s.init := rfl
@[simp] theorem accept_busy (v : Word) (s : State) : (accept v s).busy = true := rfl
@[simp] theorem accept_done (v : Word) (s : State) : (accept v s).done = false := rfl
@[simp] theorem accept_success (v : Word) (s : State) : (accept v s).success = false := rfl
@[simp] theorem accept_err (v : Word) (s : State) : (accept v s).err = .noError := rfl
@[simp] theorem accept_txto (v : Word) (s : State) : (accept v s).txto = false := rfl
@[simp] theorem accept_state (v : Word) (s : State) : (accept v s).state = .dispatch := rfl
@[simp] theorem accept_fault (v : Word) (s : State) : (accept v s).fault = s.fault := rfl
@[simp] theorem accept_refused (v : Word) (s : State) : (accept v s).refused = s.refused := rfl
@[simp] theorem accept_opL (v : Word) (s : State) : (accept v s).opL = requestOp v := rfl
@[simp] theorem accept_argL (v : Word) (s : State) : (accept v s).argL = requestArg v := rfl
@[simp] theorem accept_respLen (v : Word) (s : State) : (accept v s).respLen = 0#9 := rfl
@[simp] theorem accept_respBuf (v : Word) (s : State) : (accept v s).respBuf = [] := rfl
@[simp] theorem accept_cfgPort (v : Word) (s : State) : (accept v s).cfgPort = s.cfgPort := rfl
@[simp] theorem accept_cfgTxPin (v : Word) (s : State) : (accept v s).cfgTxPin = s.cfgTxPin := rfl
@[simp] theorem accept_cfgRxPin (v : Word) (s : State) : (accept v s).cfgRxPin = s.cfgRxPin := rfl
@[simp] theorem accept_cfgBaud (v : Word) (s : State) : (accept v s).cfgBaud = s.cfgBaud := rfl
@[simp] theorem accept_cfgSettleMs (v : Word) (s : State) : (accept v s).cfgSettleMs = s.cfgSettleMs := rfl
@[simp] theorem accept_frame (v : Word) (s : State) : (accept v s).frame = s.frame := rfl
@[simp] theorem accept_tmr (v : Word) (s : State) : (accept v s).tmr = s.tmr := rfl
@[simp] theorem accept_crc (v : Word) (s : State) : (accept v s).crc = s.crc := rfl
@[simp] theorem accept_portS (v : Word) (s : State) : (accept v s).portS = s.portS := rfl
@[simp] theorem accept_txPinS (v : Word) (s : State) : (accept v s).txPinS = s.txPinS := rfl
@[simp] theorem accept_rxPinS (v : Word) (s : State) : (accept v s).rxPinS = s.rxPinS := rfl
@[simp] theorem accept_baudS (v : Word) (s : State) : (accept v s).baudS = s.baudS := rfl
@[simp] theorem accept_txf (v : Word) (s : State) : (accept v s).txf = s.txf := rfl
@[simp] theorem accept_rxf (v : Word) (s : State) : (accept v s).rxf = s.rxf := rfl
@[simp] theorem accept_wireTx (v : Word) (s : State) : (accept v s).wireTx = s.wireTx := rfl
@[simp] theorem accept_params (v : Word) (s : State) : (accept v s).params = s.params := rfl
@[simp] theorem accept_env (v : Word) (s : State) : (accept v s).env = s.env := rfl
@[simp] theorem accept_eventNo (v : Word) (s : State) : (accept v s).eventNo = s.eventNo := rfl
@[simp] theorem accept_draw (v : Word) (s : State) : (accept v s).draw = s.draw := rfl
@[simp] theorem accept_hostProg (v : Word) (s : State) : (accept v s).hostProg = s.hostProg := rfl
@[simp] theorem accept_hostPc (v : Word) (s : State) : (accept v s).hostPc = s.hostPc := rfl
@[simp] theorem accept_hostVal (v : Word) (s : State) : (accept v s).hostVal = s.hostVal := rfl

/-! ### finish -/

@[simp] theorem finish_init (ok : Bool) (e : ErrCode) (s : State) : (finish ok e s).init = s.init := rfl
@[simp] theorem finish_busy (ok : Bool) (e : ErrCode) (s : State) : (finish ok e s).busy = false := rfl
@[simp] theorem finish_done (ok : Bool) (e : ErrCode) (s : State) : (finish ok e s).done = true := rfl
@[simp] theorem finish_success (ok : Bool) (e : ErrCode) (s : State) : (finish ok e s).success = ok := rfl
@[simp] theorem finish_err (ok : Bool) (e : ErrCode) (s : State) : (finish ok e s).err = e := rfl
@[simp] theorem finish_txto (ok : Bool) (e : ErrCode) (s : State) : (finish ok e s).txto = s.txto := rfl
@[simp] theorem finish_state (ok : Bool) (e : ErrCode) (s : State) : (finish ok e s).state = .idle := rfl
@[simp] theorem finish_fault (ok : Bool) (e : ErrCode) (s : State) : (finish ok e s).fault = s.fault := rfl
@[simp] theorem finish_refused (ok : Bool) (e : ErrCode) (s : State) : (finish ok e s).refused = s.refused := rfl
@[simp] theorem finish_opL (ok : Bool) (e : ErrCode) (s : State) : (finish ok e s).opL = s.opL := rfl
@[simp] theorem finish_argL (ok : Bool) (e : ErrCode) (s : State) : (finish ok e s).argL = s.argL := rfl
@[simp] theorem finish_respLen (ok : Bool) (e : ErrCode) (s : State) : (finish ok e s).respLen = s.respLen := rfl
@[simp] theorem finish_respBuf (ok : Bool) (e : ErrCode) (s : State) : (finish ok e s).respBuf = s.respBuf := rfl
@[simp] theorem finish_cfgPort (ok : Bool) (e : ErrCode) (s : State) : (finish ok e s).cfgPort = s.cfgPort := rfl
@[simp] theorem finish_cfgTxPin (ok : Bool) (e : ErrCode) (s : State) : (finish ok e s).cfgTxPin = s.cfgTxPin := rfl
@[simp] theorem finish_cfgRxPin (ok : Bool) (e : ErrCode) (s : State) : (finish ok e s).cfgRxPin = s.cfgRxPin := rfl
@[simp] theorem finish_cfgBaud (ok : Bool) (e : ErrCode) (s : State) : (finish ok e s).cfgBaud = s.cfgBaud := rfl
@[simp] theorem finish_cfgSettleMs (ok : Bool) (e : ErrCode) (s : State) : (finish ok e s).cfgSettleMs = s.cfgSettleMs := rfl
@[simp] theorem finish_frame (ok : Bool) (e : ErrCode) (s : State) : (finish ok e s).frame = s.frame := rfl
@[simp] theorem finish_tmr (ok : Bool) (e : ErrCode) (s : State) : (finish ok e s).tmr = 0x00000000#32 := rfl
@[simp] theorem finish_crc (ok : Bool) (e : ErrCode) (s : State) : (finish ok e s).crc = s.crc := rfl
@[simp] theorem finish_portS (ok : Bool) (e : ErrCode) (s : State) : (finish ok e s).portS = s.portS := rfl
@[simp] theorem finish_txPinS (ok : Bool) (e : ErrCode) (s : State) : (finish ok e s).txPinS = s.txPinS := rfl
@[simp] theorem finish_rxPinS (ok : Bool) (e : ErrCode) (s : State) : (finish ok e s).rxPinS = s.rxPinS := rfl
@[simp] theorem finish_baudS (ok : Bool) (e : ErrCode) (s : State) : (finish ok e s).baudS = s.baudS := rfl
@[simp] theorem finish_txf (ok : Bool) (e : ErrCode) (s : State) : (finish ok e s).txf = s.txf := rfl
@[simp] theorem finish_rxf (ok : Bool) (e : ErrCode) (s : State) : (finish ok e s).rxf = s.rxf := rfl
@[simp] theorem finish_wireTx (ok : Bool) (e : ErrCode) (s : State) : (finish ok e s).wireTx = s.wireTx := rfl
@[simp] theorem finish_params (ok : Bool) (e : ErrCode) (s : State) : (finish ok e s).params = s.params := rfl
@[simp] theorem finish_env (ok : Bool) (e : ErrCode) (s : State) : (finish ok e s).env = s.env := rfl
@[simp] theorem finish_eventNo (ok : Bool) (e : ErrCode) (s : State) : (finish ok e s).eventNo = s.eventNo := rfl
@[simp] theorem finish_draw (ok : Bool) (e : ErrCode) (s : State) : (finish ok e s).draw = s.draw := rfl
@[simp] theorem finish_hostProg (ok : Bool) (e : ErrCode) (s : State) : (finish ok e s).hostProg = s.hostProg := rfl
@[simp] theorem finish_hostPc (ok : Bool) (e : ErrCode) (s : State) : (finish ok e s).hostPc = s.hostPc := rfl
@[simp] theorem finish_hostVal (ok : Bool) (e : ErrCode) (s : State) : (finish ok e s).hostVal = s.hostVal := rfl

/-! ### refuse -/

@[simp] theorem refuse_init (s : State) : (refuse s).init = s.init := rfl
@[simp] theorem refuse_busy (s : State) : (refuse s).busy = s.busy := rfl
@[simp] theorem refuse_done (s : State) : (refuse s).done = s.done := rfl
@[simp] theorem refuse_success (s : State) : (refuse s).success = s.success := rfl
@[simp] theorem refuse_err (s : State) : (refuse s).err = s.err := rfl
@[simp] theorem refuse_txto (s : State) : (refuse s).txto = s.txto := rfl
@[simp] theorem refuse_state (s : State) : (refuse s).state = s.state := rfl
@[simp] theorem refuse_fault (s : State) : (refuse s).fault = s.fault := rfl
@[simp] theorem refuse_refused (s : State) : (refuse s).refused = true := rfl
@[simp] theorem refuse_opL (s : State) : (refuse s).opL = s.opL := rfl
@[simp] theorem refuse_argL (s : State) : (refuse s).argL = s.argL := rfl
@[simp] theorem refuse_respLen (s : State) : (refuse s).respLen = s.respLen := rfl
@[simp] theorem refuse_respBuf (s : State) : (refuse s).respBuf = s.respBuf := rfl
@[simp] theorem refuse_cfgPort (s : State) : (refuse s).cfgPort = s.cfgPort := rfl
@[simp] theorem refuse_cfgTxPin (s : State) : (refuse s).cfgTxPin = s.cfgTxPin := rfl
@[simp] theorem refuse_cfgRxPin (s : State) : (refuse s).cfgRxPin = s.cfgRxPin := rfl
@[simp] theorem refuse_cfgBaud (s : State) : (refuse s).cfgBaud = s.cfgBaud := rfl
@[simp] theorem refuse_cfgSettleMs (s : State) : (refuse s).cfgSettleMs = s.cfgSettleMs := rfl
@[simp] theorem refuse_frame (s : State) : (refuse s).frame = s.frame := rfl
@[simp] theorem refuse_tmr (s : State) : (refuse s).tmr = s.tmr := rfl
@[simp] theorem refuse_crc (s : State) : (refuse s).crc = s.crc := rfl
@[simp] theorem refuse_portS (s : State) : (refuse s).portS = s.portS := rfl
@[simp] theorem refuse_txPinS (s : State) : (refuse s).txPinS = s.txPinS := rfl
@[simp] theorem refuse_rxPinS (s : State) : (refuse s).rxPinS = s.rxPinS := rfl
@[simp] theorem refuse_baudS (s : State) : (refuse s).baudS = s.baudS := rfl
@[simp] theorem refuse_txf (s : State) : (refuse s).txf = s.txf := rfl
@[simp] theorem refuse_rxf (s : State) : (refuse s).rxf = s.rxf := rfl
@[simp] theorem refuse_wireTx (s : State) : (refuse s).wireTx = s.wireTx := rfl
@[simp] theorem refuse_params (s : State) : (refuse s).params = s.params := rfl
@[simp] theorem refuse_env (s : State) : (refuse s).env = s.env := rfl
@[simp] theorem refuse_eventNo (s : State) : (refuse s).eventNo = s.eventNo := rfl
@[simp] theorem refuse_draw (s : State) : (refuse s).draw = s.draw := rfl
@[simp] theorem refuse_hostProg (s : State) : (refuse s).hostProg = s.hostProg := rfl
@[simp] theorem refuse_hostPc (s : State) : (refuse s).hostPc = s.hostPc := rfl
@[simp] theorem refuse_hostVal (s : State) : (refuse s).hostVal = s.hostVal := rfl

/-! ### hostFault -/

@[simp] theorem hostFault_init (s : State) : (hostFault s).init = s.init := rfl
@[simp] theorem hostFault_busy (s : State) : (hostFault s).busy = s.busy := rfl
@[simp] theorem hostFault_done (s : State) : (hostFault s).done = s.done := rfl
@[simp] theorem hostFault_success (s : State) : (hostFault s).success = s.success := rfl
@[simp] theorem hostFault_err (s : State) : (hostFault s).err = s.err := rfl
@[simp] theorem hostFault_txto (s : State) : (hostFault s).txto = s.txto := rfl
@[simp] theorem hostFault_state (s : State) : (hostFault s).state = s.state := rfl
@[simp] theorem hostFault_fault (s : State) : (hostFault s).fault = true := rfl
@[simp] theorem hostFault_refused (s : State) : (hostFault s).refused = s.refused := rfl
@[simp] theorem hostFault_opL (s : State) : (hostFault s).opL = s.opL := rfl
@[simp] theorem hostFault_argL (s : State) : (hostFault s).argL = s.argL := rfl
@[simp] theorem hostFault_respLen (s : State) : (hostFault s).respLen = s.respLen := rfl
@[simp] theorem hostFault_respBuf (s : State) : (hostFault s).respBuf = s.respBuf := rfl
@[simp] theorem hostFault_cfgPort (s : State) : (hostFault s).cfgPort = s.cfgPort := rfl
@[simp] theorem hostFault_cfgTxPin (s : State) : (hostFault s).cfgTxPin = s.cfgTxPin := rfl
@[simp] theorem hostFault_cfgRxPin (s : State) : (hostFault s).cfgRxPin = s.cfgRxPin := rfl
@[simp] theorem hostFault_cfgBaud (s : State) : (hostFault s).cfgBaud = s.cfgBaud := rfl
@[simp] theorem hostFault_cfgSettleMs (s : State) : (hostFault s).cfgSettleMs = s.cfgSettleMs := rfl
@[simp] theorem hostFault_frame (s : State) : (hostFault s).frame = s.frame := rfl
@[simp] theorem hostFault_tmr (s : State) : (hostFault s).tmr = s.tmr := rfl
@[simp] theorem hostFault_crc (s : State) : (hostFault s).crc = s.crc := rfl
@[simp] theorem hostFault_portS (s : State) : (hostFault s).portS = s.portS := rfl
@[simp] theorem hostFault_txPinS (s : State) : (hostFault s).txPinS = s.txPinS := rfl
@[simp] theorem hostFault_rxPinS (s : State) : (hostFault s).rxPinS = s.rxPinS := rfl
@[simp] theorem hostFault_baudS (s : State) : (hostFault s).baudS = s.baudS := rfl
@[simp] theorem hostFault_txf (s : State) : (hostFault s).txf = s.txf := rfl
@[simp] theorem hostFault_rxf (s : State) : (hostFault s).rxf = s.rxf := rfl
@[simp] theorem hostFault_wireTx (s : State) : (hostFault s).wireTx = s.wireTx := rfl
@[simp] theorem hostFault_params (s : State) : (hostFault s).params = s.params := rfl
@[simp] theorem hostFault_env (s : State) : (hostFault s).env = s.env := rfl
@[simp] theorem hostFault_eventNo (s : State) : (hostFault s).eventNo = s.eventNo := rfl
@[simp] theorem hostFault_draw (s : State) : (hostFault s).draw = s.draw := rfl
@[simp] theorem hostFault_hostProg (s : State) : (hostFault s).hostProg = s.hostProg := rfl
@[simp] theorem hostFault_hostPc (s : State) : (hostFault s).hostPc = s.hostPc := rfl
@[simp] theorem hostFault_hostVal (s : State) : (hostFault s).hostVal = s.hostVal := rfl

/-! ### goTo -/

@[simp] theorem goTo_init (q : SeqState) (s : State) : (goTo q s).init = s.init := rfl
@[simp] theorem goTo_busy (q : SeqState) (s : State) : (goTo q s).busy = s.busy := rfl
@[simp] theorem goTo_done (q : SeqState) (s : State) : (goTo q s).done = s.done := rfl
@[simp] theorem goTo_success (q : SeqState) (s : State) : (goTo q s).success = s.success := rfl
@[simp] theorem goTo_err (q : SeqState) (s : State) : (goTo q s).err = s.err := rfl
@[simp] theorem goTo_txto (q : SeqState) (s : State) : (goTo q s).txto = s.txto := rfl
@[simp] theorem goTo_state (q : SeqState) (s : State) : (goTo q s).state = q := rfl
@[simp] theorem goTo_fault (q : SeqState) (s : State) : (goTo q s).fault = s.fault := rfl
@[simp] theorem goTo_refused (q : SeqState) (s : State) : (goTo q s).refused = s.refused := rfl
@[simp] theorem goTo_opL (q : SeqState) (s : State) : (goTo q s).opL = s.opL := rfl
@[simp] theorem goTo_argL (q : SeqState) (s : State) : (goTo q s).argL = s.argL := rfl
@[simp] theorem goTo_respLen (q : SeqState) (s : State) : (goTo q s).respLen = s.respLen := rfl
@[simp] theorem goTo_respBuf (q : SeqState) (s : State) : (goTo q s).respBuf = s.respBuf := rfl
@[simp] theorem goTo_cfgPort (q : SeqState) (s : State) : (goTo q s).cfgPort = s.cfgPort := rfl
@[simp] theorem goTo_cfgTxPin (q : SeqState) (s : State) : (goTo q s).cfgTxPin = s.cfgTxPin := rfl
@[simp] theorem goTo_cfgRxPin (q : SeqState) (s : State) : (goTo q s).cfgRxPin = s.cfgRxPin := rfl
@[simp] theorem goTo_cfgBaud (q : SeqState) (s : State) : (goTo q s).cfgBaud = s.cfgBaud := rfl
@[simp] theorem goTo_cfgSettleMs (q : SeqState) (s : State) : (goTo q s).cfgSettleMs = s.cfgSettleMs := rfl
@[simp] theorem goTo_frame (q : SeqState) (s : State) : (goTo q s).frame = s.frame := rfl
@[simp] theorem goTo_tmr (q : SeqState) (s : State) : (goTo q s).tmr = s.tmr := rfl
@[simp] theorem goTo_crc (q : SeqState) (s : State) : (goTo q s).crc = s.crc := rfl
@[simp] theorem goTo_portS (q : SeqState) (s : State) : (goTo q s).portS = s.portS := rfl
@[simp] theorem goTo_txPinS (q : SeqState) (s : State) : (goTo q s).txPinS = s.txPinS := rfl
@[simp] theorem goTo_rxPinS (q : SeqState) (s : State) : (goTo q s).rxPinS = s.rxPinS := rfl
@[simp] theorem goTo_baudS (q : SeqState) (s : State) : (goTo q s).baudS = s.baudS := rfl
@[simp] theorem goTo_txf (q : SeqState) (s : State) : (goTo q s).txf = s.txf := rfl
@[simp] theorem goTo_rxf (q : SeqState) (s : State) : (goTo q s).rxf = s.rxf := rfl
@[simp] theorem goTo_wireTx (q : SeqState) (s : State) : (goTo q s).wireTx = s.wireTx := rfl
@[simp] theorem goTo_params (q : SeqState) (s : State) : (goTo q s).params = s.params := rfl
@[simp] theorem goTo_env (q : SeqState) (s : State) : (goTo q s).env = s.env := rfl
@[simp] theorem goTo_eventNo (q : SeqState) (s : State) : (goTo q s).eventNo = s.eventNo := rfl
@[simp] theorem goTo_draw (q : SeqState) (s : State) : (goTo q s).draw = s.draw := rfl
@[simp] theorem goTo_hostProg (q : SeqState) (s : State) : (goTo q s).hostProg = s.hostProg := rfl
@[simp] theorem goTo_hostPc (q : SeqState) (s : State) : (goTo q s).hostPc = s.hostPc := rfl
@[simp] theorem goTo_hostVal (q : SeqState) (s : State) : (goTo q s).hostVal = s.hostVal := rfl

/-! ### advance -/

@[simp] theorem advance_init (s : State) : (advance s).init = s.init := rfl
@[simp] theorem advance_busy (s : State) : (advance s).busy = s.busy := rfl
@[simp] theorem advance_done (s : State) : (advance s).done = s.done := rfl
@[simp] theorem advance_success (s : State) : (advance s).success = s.success := rfl
@[simp] theorem advance_err (s : State) : (advance s).err = s.err := rfl
@[simp] theorem advance_txto (s : State) : (advance s).txto = s.txto := rfl
@[simp] theorem advance_state (s : State) : (advance s).state = s.state := rfl
@[simp] theorem advance_fault (s : State) : (advance s).fault = s.fault := rfl
@[simp] theorem advance_refused (s : State) : (advance s).refused = s.refused := rfl
@[simp] theorem advance_opL (s : State) : (advance s).opL = s.opL := rfl
@[simp] theorem advance_argL (s : State) : (advance s).argL = s.argL := rfl
@[simp] theorem advance_respLen (s : State) : (advance s).respLen = s.respLen := rfl
@[simp] theorem advance_respBuf (s : State) : (advance s).respBuf = s.respBuf := rfl
@[simp] theorem advance_cfgPort (s : State) : (advance s).cfgPort = s.cfgPort := rfl
@[simp] theorem advance_cfgTxPin (s : State) : (advance s).cfgTxPin = s.cfgTxPin := rfl
@[simp] theorem advance_cfgRxPin (s : State) : (advance s).cfgRxPin = s.cfgRxPin := rfl
@[simp] theorem advance_cfgBaud (s : State) : (advance s).cfgBaud = s.cfgBaud := rfl
@[simp] theorem advance_cfgSettleMs (s : State) : (advance s).cfgSettleMs = s.cfgSettleMs := rfl
@[simp] theorem advance_frame (s : State) : (advance s).frame = s.frame := rfl
@[simp] theorem advance_tmr (s : State) : (advance s).tmr = s.tmr := rfl
@[simp] theorem advance_crc (s : State) : (advance s).crc = s.crc := rfl
@[simp] theorem advance_portS (s : State) : (advance s).portS = s.portS := rfl
@[simp] theorem advance_txPinS (s : State) : (advance s).txPinS = s.txPinS := rfl
@[simp] theorem advance_rxPinS (s : State) : (advance s).rxPinS = s.rxPinS := rfl
@[simp] theorem advance_baudS (s : State) : (advance s).baudS = s.baudS := rfl
@[simp] theorem advance_txf (s : State) : (advance s).txf = s.txf := rfl
@[simp] theorem advance_rxf (s : State) : (advance s).rxf = s.rxf := rfl
@[simp] theorem advance_wireTx (s : State) : (advance s).wireTx = s.wireTx := rfl
@[simp] theorem advance_params (s : State) : (advance s).params = s.params := rfl
@[simp] theorem advance_env (s : State) : (advance s).env = s.env.tail := rfl
@[simp] theorem advance_eventNo (s : State) : (advance s).eventNo = s.eventNo + 1 := rfl
@[simp] theorem advance_draw (s : State) : (advance s).draw = s.draw := rfl
@[simp] theorem advance_hostProg (s : State) : (advance s).hostProg = s.hostProg := rfl
@[simp] theorem advance_hostPc (s : State) : (advance s).hostPc = s.hostPc := rfl
@[simp] theorem advance_hostVal (s : State) : (advance s).hostVal = s.hostVal := rfl

/-! ### withDraw -/

@[simp] theorem withDraw_init (d : Draw) (s : State) : (withDraw d s).init = s.init := rfl
@[simp] theorem withDraw_busy (d : Draw) (s : State) : (withDraw d s).busy = s.busy := rfl
@[simp] theorem withDraw_done (d : Draw) (s : State) : (withDraw d s).done = s.done := rfl
@[simp] theorem withDraw_success (d : Draw) (s : State) : (withDraw d s).success = s.success := rfl
@[simp] theorem withDraw_err (d : Draw) (s : State) : (withDraw d s).err = s.err := rfl
@[simp] theorem withDraw_txto (d : Draw) (s : State) : (withDraw d s).txto = s.txto := rfl
@[simp] theorem withDraw_state (d : Draw) (s : State) : (withDraw d s).state = s.state := rfl
@[simp] theorem withDraw_fault (d : Draw) (s : State) : (withDraw d s).fault = s.fault := rfl
@[simp] theorem withDraw_refused (d : Draw) (s : State) : (withDraw d s).refused = s.refused := rfl
@[simp] theorem withDraw_opL (d : Draw) (s : State) : (withDraw d s).opL = s.opL := rfl
@[simp] theorem withDraw_argL (d : Draw) (s : State) : (withDraw d s).argL = s.argL := rfl
@[simp] theorem withDraw_respLen (d : Draw) (s : State) : (withDraw d s).respLen = s.respLen := rfl
@[simp] theorem withDraw_respBuf (d : Draw) (s : State) : (withDraw d s).respBuf = s.respBuf := rfl
@[simp] theorem withDraw_cfgPort (d : Draw) (s : State) : (withDraw d s).cfgPort = s.cfgPort := rfl
@[simp] theorem withDraw_cfgTxPin (d : Draw) (s : State) : (withDraw d s).cfgTxPin = s.cfgTxPin := rfl
@[simp] theorem withDraw_cfgRxPin (d : Draw) (s : State) : (withDraw d s).cfgRxPin = s.cfgRxPin := rfl
@[simp] theorem withDraw_cfgBaud (d : Draw) (s : State) : (withDraw d s).cfgBaud = s.cfgBaud := rfl
@[simp] theorem withDraw_cfgSettleMs (d : Draw) (s : State) : (withDraw d s).cfgSettleMs = s.cfgSettleMs := rfl
@[simp] theorem withDraw_frame (d : Draw) (s : State) : (withDraw d s).frame = s.frame := rfl
@[simp] theorem withDraw_tmr (d : Draw) (s : State) : (withDraw d s).tmr = s.tmr := rfl
@[simp] theorem withDraw_crc (d : Draw) (s : State) : (withDraw d s).crc = s.crc := rfl
@[simp] theorem withDraw_portS (d : Draw) (s : State) : (withDraw d s).portS = s.portS := rfl
@[simp] theorem withDraw_txPinS (d : Draw) (s : State) : (withDraw d s).txPinS = s.txPinS := rfl
@[simp] theorem withDraw_rxPinS (d : Draw) (s : State) : (withDraw d s).rxPinS = s.rxPinS := rfl
@[simp] theorem withDraw_baudS (d : Draw) (s : State) : (withDraw d s).baudS = s.baudS := rfl
@[simp] theorem withDraw_txf (d : Draw) (s : State) : (withDraw d s).txf = s.txf := rfl
@[simp] theorem withDraw_rxf (d : Draw) (s : State) : (withDraw d s).rxf = s.rxf := rfl
@[simp] theorem withDraw_wireTx (d : Draw) (s : State) : (withDraw d s).wireTx = s.wireTx := rfl
@[simp] theorem withDraw_params (d : Draw) (s : State) : (withDraw d s).params = s.params := rfl
@[simp] theorem withDraw_env (d : Draw) (s : State) : (withDraw d s).env = s.env := rfl
@[simp] theorem withDraw_eventNo (d : Draw) (s : State) : (withDraw d s).eventNo = s.eventNo := rfl
@[simp] theorem withDraw_draw (d : Draw) (s : State) : (withDraw d s).draw = d := rfl
@[simp] theorem withDraw_hostProg (d : Draw) (s : State) : (withDraw d s).hostProg = s.hostProg := rfl
@[simp] theorem withDraw_hostPc (d : Draw) (s : State) : (withDraw d s).hostPc = s.hostPc := rfl
@[simp] theorem withDraw_hostVal (d : Draw) (s : State) : (withDraw d s).hostVal = s.hostVal := rfl

/-! ### Errors and the reset input -/

/-- An error is the end of the exchange without success (00_scope.md R12). -/
@[simp] theorem raiseErr_eq (e : ErrCode) (s : State) : raiseErr e s = finish false e s := rfl

@[simp] theorem blockReset_init (s : State) : (blockReset s).init = State.reset.init := rfl
@[simp] theorem blockReset_busy (s : State) : (blockReset s).busy = State.reset.busy := rfl
@[simp] theorem blockReset_done (s : State) : (blockReset s).done = State.reset.done := rfl
@[simp] theorem blockReset_success (s : State) : (blockReset s).success = State.reset.success := rfl
@[simp] theorem blockReset_err (s : State) : (blockReset s).err = State.reset.err := rfl
@[simp] theorem blockReset_txto (s : State) : (blockReset s).txto = State.reset.txto := rfl
@[simp] theorem blockReset_state (s : State) : (blockReset s).state = State.reset.state := rfl
@[simp] theorem blockReset_fault (s : State) : (blockReset s).fault = State.reset.fault := rfl
@[simp] theorem blockReset_refused (s : State) : (blockReset s).refused = State.reset.refused := rfl
@[simp] theorem blockReset_opL (s : State) : (blockReset s).opL = State.reset.opL := rfl
@[simp] theorem blockReset_argL (s : State) : (blockReset s).argL = State.reset.argL := rfl
@[simp] theorem blockReset_respLen (s : State) : (blockReset s).respLen = State.reset.respLen := rfl
@[simp] theorem blockReset_respBuf (s : State) : (blockReset s).respBuf = State.reset.respBuf := rfl
@[simp] theorem blockReset_cfgPort (s : State) : (blockReset s).cfgPort = State.reset.cfgPort := rfl
@[simp] theorem blockReset_cfgTxPin (s : State) : (blockReset s).cfgTxPin = State.reset.cfgTxPin := rfl
@[simp] theorem blockReset_cfgRxPin (s : State) : (blockReset s).cfgRxPin = State.reset.cfgRxPin := rfl
@[simp] theorem blockReset_cfgBaud (s : State) : (blockReset s).cfgBaud = State.reset.cfgBaud := rfl
@[simp] theorem blockReset_cfgSettleMs (s : State) : (blockReset s).cfgSettleMs = State.reset.cfgSettleMs := rfl
@[simp] theorem blockReset_frame (s : State) : (blockReset s).frame = State.reset.frame := rfl
@[simp] theorem blockReset_tmr (s : State) : (blockReset s).tmr = State.reset.tmr := rfl
@[simp] theorem blockReset_crc (s : State) : (blockReset s).crc = State.reset.crc := rfl
@[simp] theorem blockReset_portS (s : State) : (blockReset s).portS = State.reset.portS := rfl
@[simp] theorem blockReset_txPinS (s : State) : (blockReset s).txPinS = State.reset.txPinS := rfl
@[simp] theorem blockReset_rxPinS (s : State) : (blockReset s).rxPinS = State.reset.rxPinS := rfl
@[simp] theorem blockReset_baudS (s : State) : (blockReset s).baudS = State.reset.baudS := rfl
@[simp] theorem blockReset_txf (s : State) : (blockReset s).txf = State.reset.txf := rfl
@[simp] theorem blockReset_rxf (s : State) : (blockReset s).rxf = State.reset.rxf := rfl
@[simp] theorem blockReset_wireTx (s : State) : (blockReset s).wireTx = State.reset.wireTx := rfl
@[simp] theorem blockReset_params (s : State) : (blockReset s).params = s.params := rfl
@[simp] theorem blockReset_env (s : State) : (blockReset s).env = s.env := rfl
@[simp] theorem blockReset_eventNo (s : State) : (blockReset s).eventNo = s.eventNo := rfl
@[simp] theorem blockReset_draw (s : State) : (blockReset s).draw = s.draw := rfl
@[simp] theorem blockReset_hostProg (s : State) : (blockReset s).hostProg = s.hostProg := rfl
@[simp] theorem blockReset_hostPc (s : State) : (blockReset s).hostPc = s.hostPc := rfl
@[simp] theorem blockReset_hostVal (s : State) : (blockReset s).hostVal = s.hostVal := rfl

end Sys2Proof.Machine
end

