-- ==== Sys2Proof/Laws/Ops.lean ====
section
/-! SUPPORT. What each shared operation can do, said once: the response buffer, the transport's primitives, the host registers. -/

namespace Sys2Proof.Machine

/-! ### The response buffer -/

theorem cellRead_cellWrite_same (m : Memory) (a : Nat) (b : Byte) : cellRead (cellWrite m a b) a = some b := by
  induction m with
  | nil => simp [cellWrite, cellRead]
  | cons c m ih =>
    obtain ⟨i, x⟩ := c
    unfold cellWrite
    split
    · simp [cellRead]
    · split
      · simp [cellRead]
      · next h => simp [cellRead, Ne.symm h, ih]

theorem cellRead_cellWrite_other (m : Memory) {a c : Nat} (b : Byte) (h : c ≠ a) :
    cellRead (cellWrite m a b) c = cellRead m c := by
  induction m with
  | nil => simp [cellWrite, cellRead, Ne.symm h]
  | cons d m ih =>
    obtain ⟨i, x⟩ := d
    unfold cellWrite
    split
    · simp [cellRead, Ne.symm h]
    · split
      · next h' => subst h'; simp [cellRead, Ne.symm h]
      · simp [cellRead, ih]

/-- Bytes stored from index `i` on are read back there, and every other index reads as before. -/
theorem cellRead_memWriteFrom {i : Nat} {bs : List Byte} {m m' : Memory} (h : memWriteFrom i bs m = some m') (a : Nat) :
    cellRead m' a = if i ≤ a ∧ a < i + bs.length then bs[a - i]? else cellRead m a := by
  induction bs generalizing i m with
  | nil =>
    simp only [memWriteFrom, Option.some.injEq] at h
    subst h
    rw [if_neg (by simp only [List.length_nil]; omega)]
  | cons b bs ih =>
    simp only [memWriteFrom] at h
    split at h
    · rw [ih h]
      by_cases ha : a = i
      · subst ha
        simp [cellRead_cellWrite_same]
      · rw [cellRead_cellWrite_other m b ha]
        by_cases h1 : i + 1 ≤ a ∧ a < i + 1 + bs.length
        · rw [if_pos h1, if_pos (by simp; omega), show a - i = (a - (i + 1)) + 1 by omega, List.getElem?_cons_succ]
        · rw [if_neg h1, if_neg (by simp; omega)]
    · cases h

/-- Bytes that end at or below index 256 can be stored. -/
theorem memWriteFrom_isSome (i : Nat) (bs : List Byte) (m : Memory) (h : i + bs.length ≤ 256) :
    ∃ m', memWriteFrom i bs m = some m' := by
  induction bs generalizing i m with
  | nil => exact ⟨m, rfl⟩
  | cons b bs ih =>
    simp only [List.length_cons] at h
    simp only [memWriteFrom, if_pos (show i < 256 by omega)]
    exact ih (i + 1) _ (by omega)

/-- The canonical form, as a property of the list of indices. -/
theorem Memory.wf_iff (m : Memory) : Memory.wf m = true ↔ (m.map Prod.fst).Pairwise (· < ·) ∧ ∀ c ∈ m, c.1 < 256 := by
  induction m with
  | nil => simp [Memory.wf]
  | cons c m ih =>
    obtain ⟨i, b⟩ := c
    cases m with
    | nil => simp [Memory.wf]
    | cons d m =>
      obtain ⟨j, x⟩ := d
      simp only [Memory.wf, Bool.and_eq_true, decide_eq_true_eq, ih, List.map_cons, List.pairwise_cons, List.mem_cons,
        List.mem_map, forall_eq_or_imp]
      constructor
      · rintro ⟨hij, ⟨hj, hp⟩, hj', hm⟩
        refine ⟨⟨⟨hij, fun a ha => lt_trans hij (hj a ha)⟩, hj, hp⟩, lt_trans hij hj', hj', hm⟩
      · rintro ⟨⟨⟨hij, -⟩, hj, hp⟩, -, hj', hm⟩
        exact ⟨hij, ⟨hj, hp⟩, hj', hm⟩

theorem mem_cellWrite {m : Memory} {a : Nat} {b : Byte} {c : Host.Cell} (h : c ∈ cellWrite m a b) : c = (a, b) ∨ c ∈ m := by
  induction m with
  | nil => exact .inl (by simpa [cellWrite] using h)
  | cons d m ih =>
    obtain ⟨i, x⟩ := d
    unfold cellWrite at h
    split at h
    · simpa using h
    · split at h
      · rcases List.mem_cons.1 h with rfl | h
        · exact .inl rfl
        · exact .inr (List.mem_cons_of_mem _ h)
      · rcases List.mem_cons.1 h with rfl | h
        · exact .inr (List.mem_cons_self ..)
        · exact (ih h).imp id (List.mem_cons_of_mem _)

/-- Storing a byte keeps the canonical form. -/
theorem wf_cellWrite {m : Memory} {a : Nat} (b : Byte) (hm : Memory.wf m = true) (ha : a < 256) :
    Memory.wf (cellWrite m a b) = true := by
  rw [Memory.wf_iff] at hm ⊢
  refine ⟨?_, fun c hc => ?_⟩
  · induction m with
    | nil => simp [cellWrite]
    | cons d m ih =>
      obtain ⟨i, x⟩ := d
      simp only [List.map_cons, List.pairwise_cons, List.mem_map, List.mem_cons] at hm
      obtain ⟨⟨hi, hp⟩, hb⟩ := hm
      unfold cellWrite
      split
      · next h =>
        simp only [List.map_cons, List.pairwise_cons, List.mem_cons, List.mem_map]
        refine ⟨?_, hi, hp⟩
        rintro y (rfl | ⟨z, hz, rfl⟩)
        · exact h
        · exact lt_trans h (hi _ ⟨z, hz, rfl⟩)
      · split
        · next h => subst h; simp only [List.map_cons, List.pairwise_cons, List.mem_map]; exact ⟨hi, hp⟩
        · next h1 h2 =>
          simp only [List.map_cons, List.pairwise_cons, List.mem_map]
          refine ⟨?_, ih ⟨hp, fun c hc => hb c (.inr hc)⟩⟩
          rintro y ⟨z, hz, rfl⟩
          rcases mem_cellWrite hz with rfl | hz
          · show i < a; omega
          · exact hi _ ⟨z, hz, rfl⟩
  · rcases mem_cellWrite hc with rfl | hc
    · exact ha
    · exact hm.2 c hc

/-- Storing bytes keeps the canonical form. -/
theorem wf_memWriteFrom {i : Nat} {bs : List Byte} {m m' : Memory} (h : memWriteFrom i bs m = some m')
    (hm : Memory.wf m = true) : Memory.wf m' = true := by
  induction bs generalizing i m with
  | nil => simp only [memWriteFrom, Option.some.injEq] at h; exact h ▸ hm
  | cons b bs ih =>
    simp only [memWriteFrom] at h
    split at h
    · next hi => exact ih h (wf_cellWrite b hm hi)
    · cases h

theorem cellWrite_end (m : Memory) (a : Nat) (b : Byte) (h : ∀ c ∈ m, c.1 < a) : cellWrite m a b = m ++ [(a, b)] := by
  induction m with
  | nil => rfl
  | cons d m ih =>
    obtain ⟨i, x⟩ := d
    have hi : i < a := h (i, x) (List.mem_cons_self ..)
    simp only [cellWrite, if_neg (show ¬ a < i by omega), if_neg (show ¬ a = i by omega), List.cons_append]
    rw [ih fun c hc => h c (List.mem_cons_of_mem _ hc)]

/-- Storing behind the last listed index lists exactly the indices below the end. -/
theorem memWriteFrom_keys {i : Nat} {bs : List Byte} {m m' : Memory} (h : memWriteFrom i bs m = some m')
    (hm : m.map Prod.fst = List.range i) : m'.map Prod.fst = List.range (i + bs.length) := by
  induction bs generalizing i m with
  | nil => simp only [memWriteFrom, Option.some.injEq] at h; subst h; simpa using hm
  | cons b bs ih =>
    simp only [memWriteFrom] at h
    split at h
    · have hlt : ∀ c ∈ m, c.1 < i := fun c hc => List.mem_range.1 (hm ▸ List.mem_map_of_mem hc)
      rw [ih h (by rw [cellWrite_end m i b hlt, List.map_append, hm]; simp [List.range_succ])]
      simp only [List.length_cons]
      congr 1
      omega
    · cases h

/-! ### The transport -/

/-- What a step that goes through a primitive can answer. -/
theorem onTransport_cases {α : Type} {s : State} {call : Except ErrCode α} {k : α → Result} {r : Result}
    (h : onTransport s call k = r) : (∃ a, call = .ok a ∧ k a = r) ∨ (∃ e, call = .error e ∧ r = .next (finish false e s)) := by
  cases call with
  | ok a => exact .inl ⟨a, rfl, h⟩
  | error e => exact .inr ⟨e, rfl, h.symm⟩

@[simp] theorem onTransport_ok {α : Type} (s : State) (a : α) (k : α → Result) : onTransport s (.ok a) k = k a := rfl

@[simp] theorem onTransport_error {α : Type} (s : State) (e : ErrCode) (k : α → Result) :
    onTransport s (.error e) k = .next (finish false e s) := rfl

theorem transportOpen_open {s : State} (h : s.init = true) : transportOpen s = .error .alreadyOpen := by simp [transportOpen, h]

theorem transportOpen_fail {s : State} (h : s.init = false) (hd : s.draw.drv = .drvFail) :
    transportOpen s = .error .driverError := by simp [transportOpen, h, hd]

theorem transportOpen_ok {s : State} (h : s.init = false) (hd : s.draw.drv = .drvOk) : transportOpen s = .ok (openSession s) := by
  simp [transportOpen, h, hd]

/-- On a closed session every primitive but `open` fails with NotOpen (42_transport.md R117). -/
theorem transport_closed {s : State} (h : s.init = false) (n : Nat) :
    transportWrite s = .error .notOpen ∧ transportDrained s = .error .notOpen ∧ transportRead n s = .error .notOpen ∧
      transportBuffered s = .error .notOpen ∧ transportFlush s = .error .notOpen ∧ transportClose s = .error .notOpen := by
  simp [transportWrite, transportDrained, transportRead, transportBuffered, transportFlush, transportClose, h]

theorem transportWrite_ok {s : State} (h : s.init = true) {n : Fin 11} (hd : s.draw.wr = .ok n) :
    transportWrite s = .ok (.ok n, queueFrame n.val s) := by simp [transportWrite, h, hd]

theorem transportWrite_err {s : State} (h : s.init = true) {n : Fin 11} (hd : s.draw.wr = .err n) :
    transportWrite s = .ok (.err n, queueFrame n.val s) := by simp [transportWrite, h, hd]

theorem transportDrained_open {s : State} (h : s.init = true) : transportDrained s = .ok (!s.txf.isEmpty) := by
  simp [transportDrained, h]

theorem transportRead_ok {s : State} (h : s.init = true) (hd : s.draw.rd = .rdOk) (n : Nat) :
    transportRead n s = .ok (s.rxf.take n, dropReceived n s) := by simp [transportRead, h, hd]

theorem transportRead_err {s : State} (h : s.init = true) (hd : s.draw.rd = .rdErr) (n : Nat) :
    transportRead n s = .ok ([], s) := by simp [transportRead, h, hd]

theorem transportBuffered_open {s : State} (h : s.init = true) : transportBuffered s = .ok s.rxf.length := by
  simp [transportBuffered, h]

theorem transportFlush_open {s : State} (h : s.init = true) : transportFlush s = .ok { s with rxf := [] } := by
  simp [transportFlush, h]

theorem transportClose_open {s : State} (h : s.init = true) : transportClose s = .ok (closeSession s) := by
  simp [transportClose, h]

/-! ### Parameters and the timer -/

@[simp] theorem withLegalParams_legal {s : State} (h : s.params.legal = true) (r : Result) : withLegalParams s r = r := by
  simp [withLegalParams, h]

@[simp] theorem withLegalParams_illegal {s : State} (h : s.params.legal = false) (r : Result) :
    withLegalParams s r = .refused .configuration := by simp [withLegalParams, h]

theorem withLegalParams_next {s t : State} {r : Result} (h : withLegalParams s r = .next t) :
    s.params.legal = true ∧ r = .next t := by
  unfold withLegalParams at h
  split at h
  · next hl => exact ⟨hl, h⟩
  · cases h

/-- With legal parameters a timeout of at most 65535 ms, of 1000 ms or of DRAIN_TIMEOUT_MS fits in TMR (10_state.md R25). -/
theorem ticksOf_toNat {s : State} (h : s.params.legal = true) {ms : Nat} (hm : ms ≤ 65535 ∨ ms ≤ s.params.drainTimeoutMs) :
    (ticksOf ms s).toNat = ms * s.params.ticksPerMs := by
  simp only [Params.legal, Bool.and_eq_true, decide_eq_true_eq] at h
  have hle : ms ≤ max readTimeoutMs (max 65535 s.params.drainTimeoutMs) := by
    simp only [le_max_iff]; omega
  have := Nat.mul_le_mul_left s.params.ticksPerMs hle
  simp only [ticksOf, BitVec.toNat_ofNat]
  rw [Nat.mul_comm ms]
  exact Nat.mod_eq_of_lt (by omega)

/-- What storing a response can answer: the bytes are in, and the request has succeeded. -/
theorem capture_next {bytes : List Byte} {s t : State} (h : capture bytes s = .next t) :
    ∃ m, memWriteFrom 0 bytes s.respBuf = some m ∧
      t = finish true .noError { s with respBuf := m, respLen := BitVec.ofNat 9 bytes.length } := by
  unfold capture at h
  split at h
  · next m hm => exact ⟨m, hm, by simpa using h.symm⟩
  · cases h

/-- A response of at most 256 bytes can be stored. -/
theorem capture_of_le (bytes : List Byte) (s : State) (h : bytes.length ≤ 256) :
    ∃ m, memWriteFrom 0 bytes s.respBuf = some m ∧
      capture bytes s = .next (finish true .noError { s with respBuf := m, respLen := BitVec.ofNat 9 bytes.length }) := by
  obtain ⟨m, hm⟩ := memWriteFrom_isSome 0 bytes s.respBuf (by omega)
  exact ⟨m, hm, by simp [capture, hm]⟩

/-! ### Host registers -/

theorem hostWriteCmd_busy {s : State} (h : s.busy = true) (v : Word) : hostWriteCmd v s = hostFault s := by
  simp [hostWriteCmd, h]

theorem hostWriteCmd_idle {s : State} (h : s.busy = false) (v : Word) : hostWriteCmd v s = accept v s := by
  simp [hostWriteCmd, h]

/-- What a host write can do: accept a request, record a host fault, store a CFG register, or nothing. -/
theorem hostWrite_cases (n : RegNum) (v : Word) (s : State) :
    (n = 0x000#12 ∧ s.busy = false ∧ hostWrite n v s = accept v s) ∨
    (n = 0x000#12 ∧ s.busy = true ∧ hostWrite n v s = hostFault s) ∨
    (∃ p t r b m, hostWrite n v s =
      { s with cfgPort := p, cfgTxPin := t, cfgRxPin := r, cfgBaud := b, cfgSettleMs := m }) := by
  unfold hostWrite
  split
  · next h =>
    cases hb : s.busy
    · exact .inl ⟨h, rfl, hostWriteCmd_idle hb v⟩
    · exact .inr (.inl ⟨h, rfl, hostWriteCmd_busy hb v⟩)
  · refine .inr (.inr ?_)
    split
    · exact ⟨_, _, _, _, _, rfl⟩
    · split
      · exact ⟨_, _, _, _, _, rfl⟩
      · split
        · exact ⟨_, _, _, _, _, rfl⟩
        · split
          · exact ⟨_, _, _, _, _, rfl⟩
          · split <;> exact ⟨_, _, _, _, _, rfl⟩

/-! A write to one register leaves the CFG registers of other numbers alone. -/

theorem hostWrite_cfgPort_of_ne {n : RegNum} (h : n ≠ 0x003#12) (v : Word) (s : State) : (hostWrite n v s).cfgPort = s.cfgPort := by
  unfold hostWrite hostWriteCmd
  repeat' split
  all_goals rfl

theorem hostWrite_cfgTxPin_of_ne {n : RegNum} (h : n ≠ 0x004#12) (v : Word) (s : State) : (hostWrite n v s).cfgTxPin = s.cfgTxPin := by
  unfold hostWrite hostWriteCmd
  repeat' split
  all_goals rfl

theorem hostWrite_cfgRxPin_of_ne {n : RegNum} (h : n ≠ 0x005#12) (v : Word) (s : State) : (hostWrite n v s).cfgRxPin = s.cfgRxPin := by
  unfold hostWrite hostWriteCmd
  repeat' split
  all_goals rfl

theorem hostWrite_cfgBaud_of_ne {n : RegNum} (h : n ≠ 0x006#12) (v : Word) (s : State) : (hostWrite n v s).cfgBaud = s.cfgBaud := by
  unfold hostWrite hostWriteCmd
  repeat' split
  all_goals rfl

theorem hostWrite_cfgSettleMs_of_ne {n : RegNum} (h : n ≠ 0x007#12) (v : Word) (s : State) : (hostWrite n v s).cfgSettleMs = s.cfgSettleMs := by
  unfold hostWrite hostWriteCmd
  repeat' split
  all_goals rfl

end Sys2Proof.Machine
end

