-- ==== Sys2Proof/Laws/Exec.lean ====
section
/-! SUPPORT. What an instruction, a sequencer state and an agent can do, each said once as an inversion lemma. -/

namespace Sys2Proof.Machine

/-! ### Instructions -/

/-- The instructions that start an exchange: the ten SEND_COMMANDs and QUERY_DEVICES. -/
def startsExchange : Instr → Bool
  | .init => false
  | .deinit => false
  | .sendCommandRedOn => true
  | .sendCommandYellowOn => true
  | .sendCommandGreenOn => true
  | .sendCommandRedSlow => true
  | .sendCommandYellowSlow => true
  | .sendCommandGreenSlow => true
  | .sendCommandRedBurst => true
  | .sendCommandYellowBurst => true
  | .sendCommandGreenBurst => true
  | .sendCommandLightOff => true
  | .queryDevices => true
  | .sendRaw _ => false
  | .commandFrameRedOn => false
  | .commandFrameYellowOn => false
  | .commandFrameGreenOn => false
  | .commandFrameRedSlow => false
  | .commandFrameYellowSlow => false
  | .commandFrameGreenSlow => false
  | .commandFrameRedBurst => false
  | .commandFrameYellowBurst => false
  | .commandFrameGreenBurst => false
  | .commandFrameLightOff => false
  | .queryFrame => false

/-- The payload of a frame instruction. -/
def payloadOf : Instr → Option (Vector Byte 6)
  | .init => none
  | .deinit => none
  | .sendCommandRedOn => none
  | .sendCommandYellowOn => none
  | .sendCommandGreenOn => none
  | .sendCommandRedSlow => none
  | .sendCommandYellowSlow => none
  | .sendCommandGreenSlow => none
  | .sendCommandRedBurst => none
  | .sendCommandYellowBurst => none
  | .sendCommandGreenBurst => none
  | .sendCommandLightOff => none
  | .queryDevices => none
  | .sendRaw _ => none
  | .commandFrameRedOn => some (kindPayload .redOn)
  | .commandFrameYellowOn => some (kindPayload .yellowOn)
  | .commandFrameGreenOn => some (kindPayload .greenOn)
  | .commandFrameRedSlow => some (kindPayload .redSlow)
  | .commandFrameYellowSlow => some (kindPayload .yellowSlow)
  | .commandFrameGreenSlow => some (kindPayload .greenSlow)
  | .commandFrameRedBurst => some (kindPayload .redBurst)
  | .commandFrameYellowBurst => some (kindPayload .yellowBurst)
  | .commandFrameGreenBurst => some (kindPayload .greenBurst)
  | .commandFrameLightOff => some (kindPayload .lightOff)
  | .queryFrame => some queryPayload

@[simp] theorem payloadOf_commandFrameOf (k : Kind) : payloadOf (commandFrameOf k) = some (kindPayload k) := by
  cases k <;> rfl

@[simp] theorem startsExchange_sendCommandOf (k : Kind) : startsExchange (sendCommandOf k) = true := by cases k <;> rfl

theorem exec_init_cases (s : State) :
    (s.init = true ∧ exec .init s = .next (finish false .alreadyOpen s)) ∨
    (s.init = false ∧ s.draw.drv = .drvFail ∧ exec .init s = .next (finish false .driverError s)) ∨
    (s.init = false ∧ s.draw.drv = .drvOk ∧ exec .init s = .next (finish true .noError (openSession s))) := by
  cases hi : s.init
  · cases hd : s.draw.drv
    · exact .inr (.inr ⟨rfl, rfl, by simp [exec, execInit, transportOpen_ok hi hd]⟩)
    · exact .inr (.inl ⟨rfl, rfl, by simp [exec, execInit, transportOpen_fail hi hd]⟩)
  · exact .inl ⟨rfl, by simp [exec, execInit, transportOpen_open hi]⟩

theorem exec_deinit_cases (s : State) :
    (s.init = true ∧ exec .deinit s = .next (finish true .noError (closeSession s))) ∨
    (s.init = false ∧ exec .deinit s = .next (finish false .notOpen s)) := by
  cases hi : s.init
  · exact .inr ⟨rfl, by simp [exec, execDeinit, (transport_closed hi 0).2.2.2.2.2]⟩
  · exact .inl ⟨rfl, by simp [exec, execDeinit, transportClose_open hi]⟩

theorem exec_startsExchange {i : Instr} (hi : startsExchange i = true) (s : State) :
    exec i s = .next (if s.init then goTo .encode s else finish false .notOpen s) := by
  cases i <;> first | rfl | cases hi

theorem exec_payload {i : Instr} {p : Vector Byte 6} (hi : payloadOf i = some p) (s : State) :
    exec i s = .next { s with crc := crcSerial p.toList, frame := assemble p, state := .write } := by
  cases i <;> first | (cases hi; done) | (cases hi; rfl)

/-- Everything an instruction can do. -/
theorem exec_next {i : Instr} {s t : State} (h : exec i s = .next t) :
    (i = .init ∧ s.init = false ∧ s.draw.drv = .drvOk ∧ t = finish true .noError (openSession s)) ∨
    (i = .deinit ∧ s.init = true ∧ t = finish true .noError (closeSession s)) ∨
    (payloadOf i = none ∧ ∃ e, e ≠ .noError ∧ t = finish false e s) ∨
    (startsExchange i = true ∧ s.init = true ∧ t = goTo .encode s) ∨
    (∃ len, len ≠ 0 ∧ i = .sendRaw len ∧ t = refuse s) ∨
    (∃ p, payloadOf i = some p ∧ t = { s with crc := crcSerial p.toList, frame := assemble p, state := .write }) := by
  by_cases hx : startsExchange i = true
  · rw [exec_startsExchange hx] at h
    cases h
    split
    · next hi => exact .inr (.inr (.inr (.inl ⟨hx, hi, rfl⟩)))
    · exact .inr (.inr (.inl ⟨by cases i <;> first | rfl | (cases hx), .notOpen, by decide, rfl⟩))
  · cases hp : payloadOf i with
    | some p =>
      rw [exec_payload hp] at h
      cases h
      exact .inr (.inr (.inr (.inr (.inr ⟨p, rfl, rfl⟩))))
    | none =>
      cases i <;> first | exact absurd rfl hx | (cases hp; done) | skip
      · rcases exec_init_cases s with ⟨hi, he⟩ | ⟨hi, hd, he⟩ | ⟨hi, hd, he⟩ <;> rw [he] at h <;> cases h
        · exact .inr (.inr (.inl ⟨rfl, .alreadyOpen, by decide, rfl⟩))
        · exact .inr (.inr (.inl ⟨rfl, .driverError, by decide, rfl⟩))
        · exact .inl ⟨rfl, hi, hd, rfl⟩
      · rcases exec_deinit_cases s with ⟨hi, he⟩ | ⟨hi, he⟩ <;> rw [he] at h <;> cases h
        · exact .inr (.inl ⟨rfl, hi, rfl⟩)
        · exact .inr (.inr (.inl ⟨rfl, .notOpen, by decide, rfl⟩))
      · next len =>
        by_cases hl : len = 0
        · subst hl
          cases h
          exact .inr (.inr (.inl ⟨rfl, .invalidArgument, by decide, rfl⟩))
        · simp only [exec, execSendRaw, if_neg hl] at h
          cases h
          exact .inr (.inr (.inr (.inr (.inl ⟨len, hl, rfl, rfl⟩))))

/-- An instruction always answers a next state. -/
theorem exec_total (i : Instr) (s : State) : ∃ t, exec i s = .next t := by
  cases i <;> first | exact ⟨_, rfl⟩ | skip
  · rcases exec_init_cases s with ⟨-, h⟩ | ⟨-, -, h⟩ | ⟨-, -, h⟩ <;> exact ⟨_, h⟩
  · rcases exec_deinit_cases s with ⟨-, h⟩ | ⟨-, h⟩ <;> exact ⟨_, h⟩

/-! ### The sequencer's states -/

theorem stepDispatch_next {s t : State} (h : stepDispatch s = .next t) :
    (∃ i, fetchRequest s = .ok i ∧ exec i s = .next t) ∨ (∃ e, fetchRequest s = .error e ∧ t = refuse s) := by
  unfold stepDispatch at h
  split at h
  · next i hi => exact .inl ⟨i, hi, h⟩
  · next e he => exact .inr ⟨e, he, by simpa using h.symm⟩

theorem stepEncode_next {s t : State} (h : stepEncode s = .next t) : ∃ i, fetchFrame s = some i ∧ exec i s = .next t := by
  unfold stepEncode at h
  split at h
  · next i hi => exact ⟨i, hi, h⟩
  · cases h

theorem stepWrite_next {s t : State} (h : stepWrite s = .next t) :
    s.params.legal = true ∧
    ((s.init = false ∧ t = finish false .notOpen s) ∨
     (s.init = true ∧ s.draw.wr = .ok 10 ∧
       t = { queueFrame 10 s with tmr := ticksOf s.params.drainTimeoutMs s, state := .drain }) ∨
     (s.init = true ∧ s.draw.wr ≠ .ok 10 ∧ ∃ (n : Nat) (e : ErrCode), n ≤ 10 ∧ e ≠ .noError ∧
       t = finish false e (queueFrame n s))) := by
  obtain ⟨hl, h⟩ := withLegalParams_next h
  refine ⟨hl, ?_⟩
  cases hi : s.init
  · rw [(transport_closed hi 0).1] at h
    exact .inl ⟨rfl, by simpa using h.symm⟩
  · right
    cases hw : s.draw.wr with
    | err j =>
      rw [transportWrite_err hi hw] at h
      exact .inr ⟨rfl, by simp, j.val, .transportError, by omega, by decide, by simpa using h.symm⟩
    | ok n =>
      rw [transportWrite_ok hi hw] at h
      simp only [onTransport_ok] at h
      split at h
      · next hn =>
        have hn' : n = 10 := Fin.ext hn
        subst hn'
        exact .inl ⟨rfl, rfl, by simpa using h.symm⟩
      · next hn =>
        refine .inr ⟨rfl, fun hc => hn ?_, n.val, .partialWrite, by omega, by decide, by simpa using h.symm⟩
        cases hc
        rfl

theorem stepDrain_next {s t : State} (h : stepDrain s = .next t) :
    (s.init = false ∧ t = finish false .notOpen s) ∨
    (s.init = true ∧ ∃ u, (u = s ∧ s.txf = [] ∨ u = { s with txto := true } ∧ s.txf ≠ []) ∧
      (s.opL = 0x3#4 ∧ t = finish true .noError u ∨ s.opL ≠ 0x3#4 ∧ t = goTo .flush u)) := by
  unfold stepDrain at h
  cases hi : s.init
  · rw [(transport_closed hi 0).2.1] at h
    exact .inl ⟨rfl, by simpa using h.symm⟩
  · rw [transportDrained_open hi] at h
    refine .inr ⟨rfl, if (!s.txf.isEmpty) then { s with txto := true } else s, ?_, ?_⟩
    · cases hx : s.txf <;> simp [hi]
    · by_cases ho : s.opL = 0x3#4
      · exact .inl ⟨ho, by simpa [ho] using h.symm⟩
      · exact .inr ⟨ho, by simpa [ho] using h.symm⟩

theorem stepFlush_next {s t : State} (h : stepFlush s = .next t) :
    s.params.legal = true ∧
    ((s.init = false ∧ t = finish false .notOpen s) ∨
     (s.init = true ∧ t = { s with rxf := [], tmr := ticksOf s.cfgSettleMs.toNat s, state := .settle })) := by
  obtain ⟨hl, h⟩ := withLegalParams_next h
  refine ⟨hl, ?_⟩
  cases hi : s.init
  · rw [(transport_closed hi 0).2.2.2.2.1] at h
    exact .inl ⟨rfl, by simpa using h.symm⟩
  · rw [transportFlush_open hi] at h
    exact .inr ⟨rfl, by simpa [ticksOf, hi] using h.symm⟩

theorem stepSettle_next {s t : State} (h : stepSettle s = .next t) :
    s.params.legal = true ∧ t = { s with tmr := ticksOf readTimeoutMs s, state := .read } := by
  obtain ⟨hl, h⟩ := withLegalParams_next h
  exact ⟨hl, by simpa using h.symm⟩

/-- READ and FALLBACK take bytes in the same way; they differ in what follows an empty read. -/
theorem readThen_next {s t : State} {e : State → State}
    (h : (onTransport s (transportRead respCap s) fun
      | ([], u) => .next (e u)
      | (b :: bs, u) => capture (b :: bs) u) = .next t) :
    (s.init = false ∧ t = finish false .notOpen s) ∨
    (s.init = true ∧ (s.rxf = [] ∨ s.draw.rd = .rdErr) ∧ t = e s) ∨
    (s.init = true ∧ s.rxf ≠ [] ∧ s.draw.rd = .rdOk ∧ ∃ m, memWriteFrom 0 (s.rxf.take 256) s.respBuf = some m ∧
      t = finish true .noError { dropReceived 256 s with
        respBuf := m, respLen := BitVec.ofNat 9 (s.rxf.take 256).length }) := by
  cases hi : s.init
  · rw [(transport_closed hi respCap).2.2.1] at h
    exact .inl ⟨rfl, by simpa using h.symm⟩
  · right
    cases hd : s.draw.rd with
    | rdErr =>
      rw [transportRead_err hi hd] at h
      exact .inl ⟨rfl, .inr rfl, by simpa using h.symm⟩
    | rdOk =>
      rw [transportRead_ok hi hd] at h
      cases hx : s.rxf with
      | nil =>
        have hu : dropReceived respCap s = s := by cases s; simp_all [dropReceived]
        rw [hu] at h
        simp only [hx, List.take_nil, onTransport_ok] at h
        exact .inl ⟨rfl, .inl rfl, by simpa using h.symm⟩
      | cons b bs =>
        simp only [hx, respCap, List.take_succ_cons, onTransport_ok] at h
        obtain ⟨m, hm, ht⟩ := capture_next h
        exact .inr ⟨rfl, by simp, rfl, m, by simpa [dropReceived] using hm, by simpa using ht⟩

theorem stepRead_next {s t : State} (h : stepRead s = .next t) :
    (s.init = false ∧ t = finish false .notOpen s) ∨
    (s.init = true ∧ (s.rxf = [] ∨ s.draw.rd = .rdErr) ∧ t = goTo .check s) ∨
    (s.init = true ∧ s.rxf ≠ [] ∧ s.draw.rd = .rdOk ∧ ∃ m, memWriteFrom 0 (s.rxf.take 256) s.respBuf = some m ∧
      t = finish true .noError { dropReceived 256 s with
        respBuf := m, respLen := BitVec.ofNat 9 (s.rxf.take 256).length }) :=
  readThen_next h

theorem stepFallback_next {s t : State} (h : stepFallback s = .next t) :
    (s.init = false ∧ t = finish false .notOpen s) ∨
    (s.init = true ∧ (s.rxf = [] ∨ s.draw.rd = .rdErr) ∧ t = finish false .noResponse s) ∨
    (s.init = true ∧ s.rxf ≠ [] ∧ s.draw.rd = .rdOk ∧ ∃ m, memWriteFrom 0 (s.rxf.take 256) s.respBuf = some m ∧
      t = finish true .noError { dropReceived 256 s with
        respBuf := m, respLen := BitVec.ofNat 9 (s.rxf.take 256).length }) :=
  readThen_next (e := fun u => finish false .noResponse u) h

theorem stepCheck_next {s t : State} (h : stepCheck s = .next t) :
    (s.init = false ∧ t = finish false .notOpen s) ∨
    (s.init = true ∧ s.rxf ≠ [] ∧ t = goTo .fallback s) ∨
    (s.init = true ∧ s.rxf = [] ∧ t = finish false .noResponse s) := by
  unfold stepCheck at h
  cases hi : s.init
  · rw [(transport_closed hi 0).2.2.2.1] at h
    exact .inl ⟨rfl, by simpa using h.symm⟩
  · rw [transportBuffered_open hi] at h
    cases hx : s.rxf with
    | nil => exact .inr (.inr ⟨rfl, rfl, by simpa [hx] using h.symm⟩)
    | cons b bs => exact .inr (.inl ⟨rfl, by simp, by simpa [hx] using h.symm⟩)

/-- What S does when it steps: it waits, or it takes the step of its state. -/
theorem seqStep_next {s t : State} (h : seqStep s = .next t) :
    (seqEnabled s = false ∧ t = s) ∨ (seqEnabled s = true ∧ seqBody s = .next t) := by
  unfold seqStep at h
  split at h
  · next he => exact .inr ⟨he, h⟩
  · next he => exact .inl ⟨by simpa using he, by simpa using h.symm⟩

/-! ### The agents -/

theorem receiveStep_next {b : Byte} {s t : State} (h : receiveStep b s = .next t) :
    t = s ∨ (s.init = true ∧ s.params.legal = true ∧ s.rxf.length < s.params.rxDepth ∧ t = { s with rxf := s.rxf ++ [b] }) := by
  unfold receiveStep at h
  split at h
  · next hi =>
    obtain ⟨hl, h⟩ := withLegalParams_next h
    split at h
    · next hlt => exact .inr ⟨hi, hl, hlt, by simpa using h.symm⟩
    · exact .inl (by simpa using h.symm)
  · exact .inl (by simpa using h.symm)

theorem lineTxStep_cases (s : State) :
    (s.init = true ∧ ∃ b rest, s.txf = b :: rest ∧ lineTxStep s = { s with txf := rest, wireTx := s.wireTx ++ [b] }) ∨
    ((s.init = false ∨ s.txf = []) ∧ lineTxStep s = s) := by
  cases hi : s.init
  · exact .inr ⟨.inl rfl, by simp [lineTxStep, hi]⟩
  · cases hx : s.txf with
    | nil => exact .inr ⟨.inr rfl, by simp [lineTxStep, hx]⟩
    | cons b rest => exact .inl ⟨rfl, b, rest, rfl, by simp [lineTxStep, hi, hx]⟩

theorem tickStep_cases (s : State) :
    (s.tmr = 0x00000000#32 ∧ tickStep s = s) ∨
    (s.tmr ≠ 0x00000000#32 ∧ tickStep s = { s with tmr := s.tmr - 0x00000001#32 }) := by
  by_cases h : s.tmr = 0x00000000#32
  · exact .inl ⟨h, by simp [tickStep, h]⟩
  · exact .inr ⟨h, by simp [tickStep, h]⟩

/-- A step of H through its program runs the primitive at its position. -/
theorem hostProgramStep_of_getElem {s : State} {p : HostPrim} (h : s.hostProg[s.hostPc]? = some p) :
    hostProgramStep s =
      match p with
      | .halt => s
      | .write n v => { hostWrite n v s with hostPc := s.hostPc + 1 }
      | .read n => { s with hostVal := hostRead n s, hostPc := s.hostPc + 1 }
      | .branchIf bit val t =>
        { s with hostPc := if s.hostVal.getLsbD bit = val then jumpTo s.hostProg s.hostPc t else s.hostPc + 1 }
      | .goto t => { s with hostPc := jumpTo s.hostProg s.hostPc t }
      | .mark _ => { s with hostPc := s.hostPc + 1 } := by
  unfold hostProgramStep
  simp only [h]
  cases p <;> rfl

/-- H's step through its program is the host write that its next primitive names, or no write; H's own state may change besides. -/
theorem hostProgramStep_cases (s : State) :
    ∃ u pc v, (u = s ∨ ∃ n w, s.hostProg[s.hostPc]? = some (.write n w) ∧ u = hostWrite n w s) ∧
      hostProgramStep s = { u with hostPc := pc, hostVal := v } := by
  unfold hostProgramStep
  split
  · exact ⟨s, s.hostPc, s.hostVal, .inl rfl, rfl⟩
  · exact ⟨s, s.hostPc, s.hostVal, .inl rfl, rfl⟩
  · next n v h => exact ⟨_, _, _, .inr ⟨n, v, h, rfl⟩, rfl⟩
  · exact ⟨s, _, _, .inl rfl, rfl⟩
  · exact ⟨s, _, s.hostVal, .inl rfl, rfl⟩
  · exact ⟨s, _, s.hostVal, .inl rfl, rfl⟩
  · exact ⟨s, _, s.hostVal, .inl rfl, rfl⟩

/-- Everything a step of the machine can be. -/
theorem step_next {s t : State} (h : step s = .next t) :
    (∃ d, nextAgentStep s = .seq d ∧ seqStep (withDraw d (advance s)) = .next t) ∨
    (nextAgentStep s = .lineTx ∧ t = lineTxStep (advance s)) ∨
    (∃ b, nextAgentStep s = .receive b ∧ receiveStep b (advance s) = .next t) ∨
    (nextAgentStep s = .tick ∧ t = tickStep (advance s)) ∨
    (∃ n v, nextAgentStep s = .hostWrite n v ∧ t = hostWrite n v (advance s)) ∨
    (∃ n, nextAgentStep s = .hostRead n ∧ t = hostReadStep n (advance s)) ∨
    (nextAgentStep s = .hostProgram ∧ t = hostProgramStep (advance s)) ∨
    (nextAgentStep s = .resetInput ∧ t = blockReset (advance s)) := by
  unfold step agentStep at h
  cases ha : nextAgentStep s <;> simp only [ha] at h <;> simp_all

end Sys2Proof.Machine
end

