-- ==== Sys2Proof/Laws/PerInstr.lean ====
section
/-! SUPPORT. Statements about every instruction, one lemma for each. -/

namespace Sys2Proof.Laws.RoundTrip

set_option Elab.async false

/-- Decoding the code of a well-formed instruction gives it back. -/
def Statement (i : Instr) : Prop := i.wellFormed = true → decode (encode i) = .ok i

theorem init : Statement .init := fun _ => by decide

theorem deinit : Statement .deinit := fun _ => by decide

theorem sendCommandRedOn : Statement .sendCommandRedOn := fun _ => by decide

theorem sendCommandYellowOn : Statement .sendCommandYellowOn := fun _ => by decide

theorem sendCommandGreenOn : Statement .sendCommandGreenOn := fun _ => by decide

theorem sendCommandRedSlow : Statement .sendCommandRedSlow := fun _ => by decide

theorem sendCommandYellowSlow : Statement .sendCommandYellowSlow := fun _ => by decide

theorem sendCommandGreenSlow : Statement .sendCommandGreenSlow := fun _ => by decide

theorem sendCommandRedBurst : Statement .sendCommandRedBurst := fun _ => by decide

theorem sendCommandYellowBurst : Statement .sendCommandYellowBurst := fun _ => by decide

theorem sendCommandGreenBurst : Statement .sendCommandGreenBurst := fun _ => by decide

theorem sendCommandLightOff : Statement .sendCommandLightOff := fun _ => by decide

theorem queryDevices : Statement .queryDevices := fun _ => by decide

theorem sendRaw (len : Nat) : Statement (.sendRaw len) := by
  intro h
  have hl : len < 256 := by simpa [Instr.wellFormed] using h
  have hw : encode (.sendRaw len) = .request (((0x5#4).setWidth 32 <<< 8) ||| (BitVec.ofNat 8 len).setWidth 32) := rfl
  rw [hw, decode, decodeRequest, requestOp_word, requestArg_word]
  simp only [decodeOpArg, BitVec.toNat_ofNat, Nat.mod_eq_of_lt hl]

theorem commandFrameRedOn : Statement .commandFrameRedOn := fun _ => by decide +kernel

theorem commandFrameYellowOn : Statement .commandFrameYellowOn := fun _ => by decide +kernel

theorem commandFrameGreenOn : Statement .commandFrameGreenOn := fun _ => by decide +kernel

theorem commandFrameRedSlow : Statement .commandFrameRedSlow := fun _ => by decide +kernel

theorem commandFrameYellowSlow : Statement .commandFrameYellowSlow := fun _ => by decide +kernel

theorem commandFrameGreenSlow : Statement .commandFrameGreenSlow := fun _ => by decide +kernel

theorem commandFrameRedBurst : Statement .commandFrameRedBurst := fun _ => by decide +kernel

theorem commandFrameYellowBurst : Statement .commandFrameYellowBurst := fun _ => by decide +kernel

theorem commandFrameGreenBurst : Statement .commandFrameGreenBurst := fun _ => by decide +kernel

theorem commandFrameLightOff : Statement .commandFrameLightOff := fun _ => by decide +kernel

theorem queryFrame : Statement .queryFrame := fun _ => by decide +kernel

end Sys2Proof.Laws.RoundTrip
end

