-- ==== Sys2Proof/Laws/Safety.lean ====
section
/-! SUPPORT. How a step of S starts, what runs of several steps are, the canonical form at reset, and places in host programs. -/

namespace Sys2Proof.Machine

/-! ### The state in which S steps -/

@[simp] theorem atSeq_init (d : Draw) (s : State) : (atSeq d s).init = s.init := rfl
@[simp] theorem atSeq_busy (d : Draw) (s : State) : (atSeq d s).busy = s.busy := rfl
@[simp] theorem atSeq_done (d : Draw) (s : State) : (atSeq d s).done = s.done := rfl
@[simp] theorem atSeq_success (d : Draw) (s : State) : (atSeq d s).success = s.success := rfl
@[simp] theorem atSeq_err (d : Draw) (s : State) : (atSeq d s).err = s.err := rfl
@[simp] theorem atSeq_txto (d : Draw) (s : State) : (atSeq d s).txto = s.txto := rfl
@[simp] theorem atSeq_state (d : Draw) (s : State) : (atSeq d s).state = s.state := rfl
@[simp] theorem atSeq_fault (d : Draw) (s : State) : (atSeq d s).fault = s.fault := rfl
@[simp] theorem atSeq_refused (d : Draw) (s : State) : (atSeq d s).refused = s.refused := rfl
@[simp] theorem atSeq_opL (d : Draw) (s : State) : (atSeq d s).opL = s.opL := rfl
@[simp] theorem atSeq_argL (d : Draw) (s : State) : (atSeq d s).argL = s.argL := rfl
@[simp] theorem atSeq_respLen (d : Draw) (s : State) : (atSeq d s).respLen = s.respLen := rfl
@[simp] theorem atSeq_respBuf (d : Draw) (s : State) : (atSeq d s).respBuf = s.respBuf := rfl
@[simp] theorem atSeq_cfgPort (d : Draw) (s : State) : (atSeq d s).cfgPort = s.cfgPort := rfl
@[simp] theorem atSeq_cfgTxPin (d : Draw) (s : State) : (atSeq d s).cfgTxPin = s.cfgTxPin := rfl
@[simp] theorem atSeq_cfgRxPin (d : Draw) (s : State) : (atSeq d s).cfgRxPin = s.cfgRxPin := rfl
@[simp] theorem atSeq_cfgBaud (d : Draw) (s : State) : (atSeq d s).cfgBaud = s.cfgBaud := rfl
@[simp] theorem atSeq_cfgSettleMs (d : Draw) (s : State) : (atSeq d s).cfgSettleMs = s.cfgSettleMs := rfl
@[simp] theorem atSeq_frame (d : Draw) (s : State) : (atSeq d s).frame = s.frame := rfl
@[simp] theorem atSeq_tmr (d : Draw) (s : State) : (atSeq d s).tmr = s.tmr := rfl
@[simp] theorem atSeq_crc (d : Draw) (s : State) : (atSeq d s).crc = s.crc := rfl
@[simp] theorem atSeq_portS (d : Draw) (s : State) : (atSeq d s).portS = s.portS := rfl
@[simp] theorem atSeq_txPinS (d : Draw) (s : State) : (atSeq d s).txPinS = s.txPinS := rfl
@[simp] theorem atSeq_rxPinS (d : Draw) (s : State) : (atSeq d s).rxPinS = s.rxPinS := rfl
@[simp] theorem atSeq_baudS (d : Draw) (s : State) : (atSeq d s).baudS = s.baudS := rfl
@[simp] theorem atSeq_txf (d : Draw) (s : State) : (atSeq d s).txf = s.txf := rfl
@[simp] theorem atSeq_rxf (d : Draw) (s : State) : (atSeq d s).rxf = s.rxf := rfl
@[simp] theorem atSeq_wireTx (d : Draw) (s : State) : (atSeq d s).wireTx = s.wireTx := rfl
@[simp] theorem atSeq_params (d : Draw) (s : State) : (atSeq d s).params = s.params := rfl
@[simp] theorem atSeq_hostProg (d : Draw) (s : State) : (atSeq d s).hostProg = s.hostProg := rfl
@[simp] theorem atSeq_hostPc (d : Draw) (s : State) : (atSeq d s).hostPc = s.hostPc := rfl
@[simp] theorem atSeq_hostVal (d : Draw) (s : State) : (atSeq d s).hostVal = s.hostVal := rfl
@[simp] theorem atSeq_draw (d : Draw) (s : State) : (atSeq d s).draw = d := rfl
@[simp] theorem atSeq_env (d : Draw) (s : State) : (atSeq d s).env = s.env.tail := rfl
@[simp] theorem atSeq_eventNo (d : Draw) (s : State) : (atSeq d s).eventNo = s.eventNo + 1 := rfl

/-- A step of S is S's step in the state that has its draw. -/
theorem step_seq {d : Draw} {s : State} (h : nextAgentStep s = .seq d) : step s = seqStep (atSeq d s) := by
  simp [step, agentStep, h, atSeq]

/-- Being enabled does not depend on the draw. -/
@[simp] theorem seqEnabled_atSeq (d : Draw) (s : State) : seqEnabled (atSeq d s) = seqEnabled s := rfl

theorem seqStep_on {s : State} (h : seqEnabled s = true) : seqStep s = seqBody s := by simp [seqStep, h]

theorem seqStep_off {s : State} (h : seqEnabled s = false) : seqStep s = .next s := by simp [seqStep, h]

/-! ### The fetch -/

/-- What the latched request can decode to: never a frame, and each operation only its own requests. -/
theorem decodeOpArg_ok {op : BitVec 4} {arg : Byte} {i : Instr} (h : decodeOpArg op arg = .ok i) :
    (startsExchange i = true → (op = 0x3#4 ∧ (kindOf arg).isSome = true) ∨ (op = 0x4#4 ∧ arg = 0x00#8)) ∧
    (i = .init → op = 0x1#4) ∧ (i = .deinit → op = 0x2#4) ∧ payloadOf i = none := by
  have hn : ∀ n : Nat, op.toNat = n → op = BitVec.ofNat 4 n := by
    intro n h
    subst h
    simp
  unfold decodeOpArg at h
  split at h
  · have := hn 1 ‹_›
    split at h <;> cases h
    simp [startsExchange, this, payloadOf]
  · have := hn 2 ‹_›
    split at h <;> cases h
    simp [startsExchange, this, payloadOf]
  · have := hn 3 ‹_›
    split at h
    · next k hk =>
      cases h
      simp only [this, hk]
      cases k <;> simp [sendCommandOf, payloadOf]
    · cases h
  · have := hn 4 ‹_›
    split at h <;> cases h
    simp_all [startsExchange, payloadOf]
  · cases h
    simp [startsExchange, payloadOf]
  · cases h

/-! ### Runs -/

@[simp] theorem core_run_zero (s : State) : Sys2Proof.core.run 0 s = .next s := rfl

/-- A run starts with a step. -/
theorem core_run_succ {n : Nat} {s t : State} (h : step s = .next t) :
    Sys2Proof.core.run (n + 1) s = Sys2Proof.core.run n t := by
  simp [Host.Core.run, Sys2Proof.core, h]

/-- A run of `m + n` steps is one of `m` and then one of `n`. -/
theorem core_run_add {m n : Nat} {s t : State} (h : Sys2Proof.core.run m s = .next t) :
    Sys2Proof.core.run (m + n) s = Sys2Proof.core.run n t := by
  induction m generalizing s with
  | zero =>
    rw [core_run_zero] at h
    cases h
    rw [Nat.zero_add]
  | succ m ih =>
    rw [Nat.succ_add]
    cases hs : step s with
    | next u =>
      rw [core_run_succ hs] at h ⊢
      exact ih h
    | fault r => simp [Host.Core.run, Sys2Proof.core, hs] at h
    | refused r => simp [Host.Core.run, Sys2Proof.core, hs] at h

/-! ### Host programs -/

theorem expandProgram_append (p q : List HostOp) : expandProgram (p ++ q) = expandProgram p ++ expandProgram q := by
  simp [expandProgram]

theorem expandProgram_cons (o : HostOp) (p : List HostOp) : expandProgram (o :: p) = expandOp o ++ expandProgram p := rfl

/-- At a line, the host's next primitives are the line's expansion. -/
theorem atLine_getElem {pre post : List HostOp} {o : HostOp} {s : State} (h : atLine pre o post s) {i : Nat}
    (hi : i < (expandOp o).length) : s.hostProg[s.hostPc + i]? = (expandOp o)[i]? := by
  obtain ⟨hp, hc⟩ := h
  rw [hp, hc, expandProgram_append, List.getElem?_append_right (Nat.le_add_right _ _), Nat.add_sub_cancel_left,
    expandProgram_cons, List.getElem?_append_left hi]

/-- Only the line of a label expands to its mark. -/
theorem mark_mem_expandOp {l : Nat} {o : HostOp} (h : .mark l ∈ expandOp o) : o = .label l := by
  cases o <;> simp_all [expandOp]

/-- A jump to a label goes to the line that the label marks first. -/
theorem labelAt_jumpTo {l q : Nat} {s : State} (h : labelAt l q s) (pc : Nat) : jumpTo s.hostProg pc (.label l) = q := by
  obtain ⟨pre, post, hp, hl, rfl⟩ := h
  have hm : HostPrim.mark l ∉ expandProgram pre := fun hm => by
    obtain ⟨o, ho, hmo⟩ := List.mem_flatMap.1 hm
    exact hl (mark_mem_expandOp hmo ▸ ho)
  simp [jumpTo, hp, expandProgram_append, expandProgram_cons, expandOp, List.idxOf_append, hm]

/-- The DONE and SUCCESS bits of STATUS, which a host program tests. -/
theorem statusWord_done (s : State) : (statusWord s).getLsbD 2 = s.done := by simp [statusWord, bitAt]

theorem statusWord_success (s : State) : (statusWord s).getLsbD 3 = s.success := by simp [statusWord, bitAt]

/-! ### Reset -/

/-- The response buffer is in canonical form right after reset. -/
theorem reset_wf : State.reset.respBuf.wf = true := rfl

/-- Storing a response keeps the canonical form. -/
theorem capture_wf {bytes : List Byte} {s t : State} (hs : s.respBuf.wf = true) (h : capture bytes s = .next t) :
    t.respBuf.wf = true := by
  obtain ⟨m, hm, rfl⟩ := capture_next h
  exact wf_memWriteFrom hm hs

end Sys2Proof.Machine
end

