-- ==== Sys2Proof/Tests/Slice0.lean ====
section
/-! SUPPORT. Tests: ill-formed terms, words written out from the spec's encodings, single steps against 95_test_vectors.md (`V<n>`),
and for every statement with hypotheses a state that meets them (`test_meets_…`). -/

namespace Sys2Proof.Tests

open Sys2Proof.Machine

set_option Elab.async false

/-! ### Helpers -/

/-- The example parameters of 95_test_vectors.md. -/
def par : Params := { ticksPerMs := 1, drainTimeoutMs := 20, rxDepth := 512, txDepth := 16, hostBase := 0 }

/-- The healthy draws (42_transport.md R121). -/
def dOk : Draw := { drv := .drvOk, wr := .ok 10, rd := .rdOk }

/-- A closed block after reset, with the example parameters and the given next steps. -/
def closed (env : List AgentStep) : State := { State.reset with params := par, env := env }

/-- The same block, open. -/
def opened (env : List AgentStep) : State := { closed env with init := true }

/-- An open block with S in a state of a request, stepping next with the given draw. -/
def inState (q : SeqState) (op : BitVec 4) (arg : Byte) (d : Draw) : State :=
  { opened [.seq d] with
    busy := true
    state := q
    opL := op
    argL := arg
    frame := if op = 0x4#4 then encodeQuery else encodeCommand .redOn }

/-- The state after one step, if it answers one. -/
def after (s : State) : Option State :=
  match step s with
  | .next t => some t
  | .fault _ => none
  | .refused _ => none

/-- STATUS after one step. -/
def statusAfter (s : State) : Option Word := (after s).map statusWord

/-! ### Ill-formed terms -/

/-- 30_encoding.md R71: the length of SEND_RAW is 0 to 255. -/
theorem test_sendRaw_256_ill_formed : (Instr.sendRaw 256).wellFormed = false := by decide

theorem test_sendRaw_255_well_formed : (Instr.sendRaw 255).wellFormed = true := by decide

/-- 30_encoding.md R79: `send_raw N` has N at most 255. -/
theorem test_program_sendRaw_256_ill_formed : hostProgramWellFormed [.sendRaw 256, .halt] = false := by decide

/-- A jump to a label that marks no line. -/
theorem test_program_missing_label_ill_formed : hostProgramWellFormed [.init, .wait, .bfail 1, .halt] = false := by decide

/-- A label that marks two lines. -/
theorem test_program_doubled_label_ill_formed : hostProgramWellFormed [.jmp 1, .label 1, .label 1, .halt] = false := by decide

/-- P1 of 95_test_vectors.md. -/
theorem test_program_P1_well_formed :
    hostProgramWellFormed [.cfg 2#32 17#32 16#32 9600#32, .init, .wait, .bfail 0, .sendCommand .redOn, .wait, .halt, .label 0,
      .halt] = true := by decide

/-! ### Decoding: the words of 30_encoding.md R76, the frames of 41_frame_codec.md R98 and R99 as the numbers of V20 to V30 -/

theorem test_decode_init : decodeTableWord 16 0x100 = some .init := by decide
theorem test_decode_deinit : decodeTableWord 16 0x200 = some .deinit := by decide
theorem test_decode_sendCommandRedOn : decodeTableWord 16 0x311 = some .sendCommandRedOn := by decide
theorem test_decode_sendCommandYellowOn : decodeTableWord 16 0x312 = some .sendCommandYellowOn := by decide
theorem test_decode_sendCommandGreenOn : decodeTableWord 16 0x313 = some .sendCommandGreenOn := by decide
theorem test_decode_sendCommandRedSlow : decodeTableWord 16 0x321 = some .sendCommandRedSlow := by decide
theorem test_decode_sendCommandYellowSlow : decodeTableWord 16 0x322 = some .sendCommandYellowSlow := by decide
theorem test_decode_sendCommandGreenSlow : decodeTableWord 16 0x323 = some .sendCommandGreenSlow := by decide
theorem test_decode_sendCommandRedBurst : decodeTableWord 16 0x331 = some .sendCommandRedBurst := by decide
theorem test_decode_sendCommandYellowBurst : decodeTableWord 16 0x332 = some .sendCommandYellowBurst := by decide
theorem test_decode_sendCommandGreenBurst : decodeTableWord 16 0x333 = some .sendCommandGreenBurst := by decide
theorem test_decode_sendCommandLightOff : decodeTableWord 16 0x360 = some .sendCommandLightOff := by decide
theorem test_decode_queryDevices : decodeTableWord 16 0x400 = some .queryDevices := by decide
theorem test_decode_sendRaw_0 : decodeTableWord 16 0x500 = some (.sendRaw 0) := by decide
theorem test_decode_sendRaw_255 : decodeTableWord 16 0x5FF = some (.sendRaw 255) := by decide

theorem test_decode_commandFrameRedOn :
    decodeTableWord 80 0x010600C20011E83A0000 = some .commandFrameRedOn := by decide +kernel
theorem test_decode_commandFrameYellowOn :
    decodeTableWord 80 0x010600C20012A83B0000 = some .commandFrameYellowOn := by decide +kernel
theorem test_decode_commandFrameGreenOn :
    decodeTableWord 80 0x010600C2001369FB0000 = some .commandFrameGreenOn := by decide +kernel
theorem test_decode_commandFrameRedSlow :
    decodeTableWord 80 0x010600C20021E82E0000 = some .commandFrameRedSlow := by decide +kernel
theorem test_decode_commandFrameYellowSlow :
    decodeTableWord 80 0x010600C20022A82F0000 = some .commandFrameYellowSlow := by decide +kernel
theorem test_decode_commandFrameGreenSlow :
    decodeTableWord 80 0x010600C2002369EF0000 = some .commandFrameGreenSlow := by decide +kernel
theorem test_decode_commandFrameRedBurst :
    decodeTableWord 80 0x010600C20031E9E20000 = some .commandFrameRedBurst := by decide +kernel
theorem test_decode_commandFrameYellowBurst :
    decodeTableWord 80 0x010600C20032A9E30000 = some .commandFrameYellowBurst := by decide +kernel
theorem test_decode_commandFrameGreenBurst :
    decodeTableWord 80 0x010600C2003368230000 = some .commandFrameGreenBurst := by decide +kernel
theorem test_decode_commandFrameLightOff :
    decodeTableWord 80 0x010600C20060281E0000 = some .commandFrameLightOff := by decide +kernel
theorem test_decode_queryFrame :
    decodeTableWord 80 0xFF03003F000060180000 = some .queryFrame := by decide +kernel

/-- The refused words of V58, each by its reason. -/
theorem test_decode_reserved_requests :
    decodeRequest 0x00000000#32 = .error .reservedOp ∧ decodeRequest 0x0000060A#32 = .error .reservedOp ∧
    decodeRequest 0x00000F00#32 = .error .reservedOp ∧ decodeRequest 0x00000101#32 = .error .nonzeroArg ∧
    decodeRequest 0x00000401#32 = .error .nonzeroArg ∧ decodeRequest 0x00000314#32 = .error .reservedKind ∧
    decodeRequest 0x00000300#32 = .error .reservedKind := by decide

/-- V32: the checker's verdicts on invalid inputs. -/
theorem test_decode_bad_frames :
    frameCheck (List.replicate 10 0x00#8) = .invalid .crc ∧
    frameCheck [0x01#8, 0x06#8, 0x00#8, 0xC2#8, 0x00#8, 0x11#8, 0xE8#8, 0x3A#8] = .invalid .length ∧
    frameCheck [0x01#8, 0x06#8, 0x00#8, 0xC2#8, 0x00#8, 0x11#8, 0xE8#8, 0x3A#8, 0x00#8, 0x01#8] = .invalid .suffix ∧
    frameCheck [0x01#8, 0x06#8, 0x00#8, 0xC2#8, 0x00#8, 0x11#8, 0x00#8, 0x00#8, 0xFF#8, 0x00#8] = .invalid .suffix ∧
    frameCheck [0x01#8, 0x06#8, 0x00#8, 0xC2#8, 0x00#8, 0x11#8, 0x3A#8, 0xE8#8, 0x00#8, 0x00#8] = .invalid .crc ∧
    frameCheck [0x01#8, 0x06#8, 0x00#8, 0xC2#8, 0x00#8, 0x14#8, 0x28#8, 0x39#8, 0x00#8, 0x00#8] = .invalid .kind ∧
    frameCheck [0x02#8, 0x06#8, 0x00#8, 0xC2#8, 0x00#8, 0x11#8, 0xE8#8, 0x09#8, 0x00#8, 0x00#8] = .invalid .leading ∧
    frameCheck [0xFF#8, 0x03#8, 0x00#8, 0x3F#8, 0x00#8, 0x01#8, 0xA1#8, 0xD8#8, 0x00#8, 0x00#8] = .invalid .leading := by
  decide +kernel

/-! ### The checksum -/

/-- V6. -/
theorem test_crcBitStep :
    [0x0000#16, 0x0001#16, 0x0002#16, 0x8000#16, 0xFFFE#16, 0xFFFF#16, 0xA001#16, 0x5555#16, 0xAAAA#16].map crcBitStep =
      [0x0000#16, 0xA001#16, 0x0001#16, 0x4000#16, 0x7FFF#16, 0xDFFE#16, 0xF001#16, 0x8AAB#16, 0x5555#16] := by decide +kernel

/-- V7. -/
theorem test_crcByte :
    crcByte 0xFFFF#16 0x00#8 = 0x40BF#16 ∧ crcByte 0xFFFF#16 0xFF#8 = 0x00FF#16 ∧ crcByte 0xFFFF#16 0x01#8 = 0x807E#16 ∧
    crcByte 0x0000#16 0x01#8 = 0xC0C1#16 ∧ crcByte 0x1234#16 0x56#8 = 0xE993#16 := by decide +kernel

/-- V8: the empty sequence, six zero bytes, and "123456789". -/
theorem test_crc16 :
    crc16 [] = 0xFFFF#16 ∧ crc16 (List.replicate 6 0x00#8) = 0x1B00#16 ∧
    crc16 [0x31#8, 0x32#8, 0x33#8, 0x34#8, 0x35#8, 0x36#8, 0x37#8, 0x38#8, 0x39#8] = 0x4B37#16 := by decide +kernel

/-- V5, V11: the accumulator of the serial generator after each byte of the LIGHT_OFF payload. -/
theorem test_crcSerial_bytes :
    [8, 16, 24, 32, 40, 48].map (fun n => (crcClocks (kindPayload .lightOff).toList n crcSeed).acc) =
      [0x807E#16, 0x2280#16, 0xA023#16, 0x4860#16, 0x2848#16, 0x1E28#16] := by decide +kernel

/-! ### Host registers -/

/-- V40. -/
theorem test_reset_reads :
    [0x000#12, 0x001#12, 0x002#12, 0x003#12, 0x006#12, 0x008#12, 0x0FF#12, 0x200#12, 0xFFF#12].map (hostRead · (closed [])) =
      List.replicate 9 0#32 ∧
    hostRead 0x007#12 (closed []) = 10#32 ∧ memRead 0 (closed []) = none := by decide +kernel

/-- V41, V42. -/
theorem test_cfg_writes :
    hostRead 0x003#12 (hostWrite 0x003#12 0x000001FF#32 (closed [])) = 0xFF#32 ∧
    hostRead 0x006#12 (hostWrite 0x006#12 0xFFFFFFFF#32 (closed [])) = 0xFFFFFFFF#32 ∧
    hostRead 0x007#12 (hostWrite 0x007#12 0x00012345#32 (closed [])) = 0x2345#32 ∧
    hostWrite 0x001#12 0x12345678#32 (closed []) = closed [] ∧ hostWrite 0x1FF#12 0x12345678#32 (closed []) = closed [] := by
  refine ⟨by decide +kernel, by decide +kernel, by decide +kernel, rfl, rfl⟩

/-- V43, V56. -/
theorem test_accept :
    (after (opened [.hostWrite 0x000#12 0xABCDE311#32])).map (fun t => (hostRead 0x000#12 t, statusWord t)) =
      some (0x00000311#32, 0x00000103#32) := by decide +kernel

/-- V57. -/
theorem test_hostFault :
    (after { inState .read 0x4#4 0x00#8 dOk with env := [.hostWrite 0x000#12 0x00000311#32] }).map
      (fun t => (statusWord t, hostRead 0x000#12 t)) = some (0x00001703#32, 0x00000400#32) := by decide +kernel

/-! ### Single steps of S -/

/-- S in DISPATCH of a closed block. -/
def closedDispatch (op : BitVec 4) (arg : Byte) (d : Draw) : State :=
  { inState .dispatch op arg d with init := false }

/-- V59. -/
theorem test_init :
    statusAfter (closedDispatch 0x1#4 0x00#8 dOk) = some 0x0000000D#32 ∧
    statusAfter (closedDispatch 0x1#4 0x00#8 { dOk with drv := .drvFail }) = some 0x00000034#32 ∧
    statusAfter (inState .dispatch 0x1#4 0x00#8 dOk) = some 0x00000015#32 := by decide +kernel

/-- INIT latches the line parameters (42_transport.md R109; P1). -/
theorem test_init_latches :
    (after { closedDispatch 0x1#4 0x00#8 dOk with cfgPort := 2#8, cfgTxPin := 17#8, cfgRxPin := 16#8, cfgBaud := 9600#32 }).map
      (fun t => (t.portS, t.txPinS, t.rxPinS, t.baudS)) = some (2#8, 17#8, 16#8, 9600#32) := by decide +kernel

/-- V60. -/
theorem test_deinit :
    (after { inState .dispatch 0x2#4 0x00#8 dOk with txf := [0x00#8], rxf := [0xAA#8, 0xBB#8] }).map
      (fun t => (statusWord t, t.txf, t.rxf, t.wireTx)) = some (0x0000000C#32, [], [], []) ∧
    statusAfter (closedDispatch 0x2#4 0x00#8 dOk) = some 0x00000024#32 := by decide +kernel

/-- V70. -/
theorem test_closed_requests :
    statusAfter (closedDispatch 0x3#4 0x11#8 dOk) = some 0x00000024#32 ∧
    statusAfter (closedDispatch 0x4#4 0x00#8 dOk) = some 0x00000024#32 := by decide +kernel

/-- V61, V80. -/
theorem test_sendRaw :
    statusAfter (closedDispatch 0x5#4 0x00#8 dOk) = some 0x00000064#32 ∧
    statusAfter (inState .dispatch 0x5#4 0x00#8 dOk) = some 0x00000065#32 ∧
    statusAfter (inState .dispatch 0x5#4 0x05#8 dOk) = some 0x00002103#32 := by decide +kernel

/-- V58: every reason, on a closed block. -/
theorem test_refusals :
    [(0x0#4, 0x00#8), (0x6#4, 0x0A#8), (0xF#4, 0x00#8), (0x1#4, 0x01#8), (0x4#4, 0x01#8), (0x3#4, 0x14#8), (0x3#4, 0x00#8),
      (0x5#4, 0x01#8)].map (fun p => statusAfter (closedDispatch p.1 p.2 dOk)) = List.replicate 8 (some 0x00002102#32) := by
  decide +kernel

/-- ENCODE of LIGHT_OFF (V29), with the query frame still in FRAME. -/
theorem test_encode_command :
    (after { inState .encode 0x3#4 0x60#8 dOk with frame := encodeQuery }).map (fun t => (t.frame, t.crc.acc, t.state)) =
      some (#v[0x01#8, 0x06#8, 0x00#8, 0xC2#8, 0x00#8, 0x60#8, 0x28#8, 0x1E#8, 0x00#8, 0x00#8], 0x1E28#16, .write) := by
  decide +kernel

/-- ENCODE of the query (V30), with another frame still in FRAME. -/
theorem test_encode_query :
    (after { inState .encode 0x4#4 0x00#8 dOk with frame := encodeCommand .redOn }).map (fun t => (t.frame, t.state)) =
      some (#v[0xFF#8, 0x03#8, 0x00#8, 0x3F#8, 0x00#8, 0x00#8, 0x60#8, 0x18#8, 0x00#8, 0x00#8], .write) := by decide +kernel

/-- WRITE of the RED_ON frame with an outcome. -/
def writeWith (w : WriteOutcome) : State := inState .write 0x3#4 0x11#8 { dOk with wr := w }

/-- V62. -/
theorem test_write :
    (after (writeWith (.ok 10))).map (fun t => (t.txf, statusWord t, t.tmr)) =
      some ([0x01#8, 0x06#8, 0x00#8, 0xC2#8, 0x00#8, 0x11#8, 0xE8#8, 0x3A#8, 0x00#8, 0x00#8], 0x00000403#32, 20#32) ∧
    (after (writeWith (.ok 4))).map (fun t => (t.txf, statusWord t)) =
      some ([0x01#8, 0x06#8, 0x00#8, 0xC2#8], 0x00000045#32) ∧
    (after (writeWith (.ok 0))).map (fun t => (t.txf, statusWord t)) = some ([], 0x00000045#32) ∧
    (after (writeWith (.err 3))).map (fun t => (t.txf, statusWord t)) =
      some ([0x01#8, 0x06#8, 0x00#8], 0x00000075#32) := by decide +kernel

/-- V63: seven bytes queued leave no room in a FIFO of 16; six do. -/
theorem test_write_blocks :
    statusAfter { writeWith (.ok 10) with txf := List.replicate 7 0x00#8 } = some 0x00000303#32 ∧
    statusAfter { writeWith (.ok 10) with txf := List.replicate 6 0x00#8 } = some 0x00000403#32 := by decide +kernel

/-- V64, V65. -/
theorem test_drain :
    statusAfter { inState .drain 0x3#4 0x11#8 dOk with tmr := 5#32 } = some 0x0000000D#32 ∧
    statusAfter { inState .drain 0x3#4 0x11#8 dOk with tmr := 5#32, txf := [0x00#8, 0x00#8] } = some 0x00000403#32 ∧
    statusAfter { inState .drain 0x3#4 0x11#8 dOk with txf := [0x00#8, 0x00#8] } = some 0x0000008D#32 ∧
    statusAfter { inState .drain 0x4#4 0x00#8 dOk with txf := [0x00#8] } = some 0x00000583#32 := by decide +kernel

/-- V54, V55. -/
theorem test_flush_settle :
    (after { inState .flush 0x4#4 0x00#8 dOk with rxf := [0xAA#8] }).map (fun t => (t.rxf, t.tmr, t.state)) =
      some ([], 10#32, .settle) ∧
    (after { inState .settle 0x4#4 0x00#8 dOk with rxf := [0xAA#8] }).map (fun t => (t.rxf, t.tmr, t.state)) =
      some ([0xAA#8], 1000#32, .read) := by decide +kernel

/-- READ, by what is queued, the timer and the draw. -/
def readWith (rxf : List Byte) (tmr : Word) (r : ReadOutcome) : State :=
  { inState .read 0x4#4 0x00#8 { dOk with rd := r } with rxf := rxf, tmr := tmr }

/-- V66, V71. -/
theorem test_read :
    (after (readWith [0x01#8, 0x03#8, 0x02#8] 900#32 .rdOk)).map (fun t => (t.respBuf, t.respLen, t.rxf, statusWord t, t.tmr)) =
      some ([(0, 0x01#8), (1, 0x03#8), (2, 0x02#8)], 3#9, [], 0x0000000D#32, 0#32) ∧
    statusAfter (readWith [] 900#32 .rdOk) = some 0x00000703#32 ∧
    statusAfter (readWith [] 0#32 .rdOk) = some 0x00000803#32 ∧
    (after (readWith [0x01#8] 500#32 .rdErr)).map (fun t => (statusWord t, t.rxf)) = some (0x00000803#32, [0x01#8]) := by
  decide +kernel

/-- V67, V68. -/
theorem test_check_fallback :
    statusAfter (inState .check 0x4#4 0x00#8 dOk) = some 0x00000055#32 ∧
    statusAfter { inState .check 0x4#4 0x00#8 dOk with rxf := [0x7E#8] } = some 0x00000903#32 ∧
    (after { inState .fallback 0x4#4 0x00#8 dOk with rxf := [0x7E#8] }).map (fun t => (statusWord t, memRead 0 t)) =
      some (0x0000000D#32, some 0x7E#8) ∧
    (after { inState .fallback 0x4#4 0x00#8 { dOk with rd := .rdErr } with rxf := [0x7E#8] }).map
      (fun t => (statusWord t, t.rxf)) = some (0x00000055#32, [0x7E#8]) := by decide +kernel

/-! ### The other agents -/

/-- V50. -/
theorem test_lineTx :
    (after { opened [.lineTx] with txf := [0x01#8, 0x06#8] }).map (fun t => (t.txf, t.wireTx)) =
      some ([0x06#8], [0x01#8]) := by decide +kernel

/-- V51. -/
theorem test_receive :
    (after (opened [.receive 0x55#8])).map (·.rxf) = some [0x55#8] ∧
    (after { opened [.receive 0xAA#8] with rxf := List.replicate 512 0x00#8 }).map (·.rxf.length) = some 512 ∧
    (after (closed [.receive 0x55#8])).map (·.rxf) = some [] := by decide +kernel

/-- V52. -/
theorem test_tick :
    [3#32, 1#32, 0#32].map (fun n => (after { opened [.tick] with tmr := n }).map (·.tmr)) =
      [some 2#32, some 0#32, some 0#32] := by decide +kernel

/-- V90. -/
theorem test_reset_during_read :
    (after { readWith [0x01#8, 0x02#8] 900#32 .rdOk with env := [.resetInput], cfgSettleMs := 3#16 }).map
      (fun t => (statusWord t, t.rxf, t.respLen, t.cfgSettleMs)) = some (0#32, [], 0#9, 10#16) := by decide +kernel

/-- A host program's `wait` (30_encoding.md R80): the host reads STATUS, and goes back while DONE is 0. -/
theorem test_program_wait :
    ((hostProgramStep (hostProgramStep (loadHostProgram [.wait, .halt] (inState .read 0x4#4 0x00#8 dOk)))).hostPc,
      (hostProgramStep (hostProgramStep (loadHostProgram [.wait, .halt] { opened [] with done := true }))).hostPc) =
      (0, 2) := by decide +kernel

/-- `bok` jumps if SUCCESS is 1, `bfail` if it is 0 (30_encoding.md R80). -/
theorem test_program_branch :
    ((fun s : State => (hostProgramStep (hostProgramStep s)).hostPc) <$>
      [loadHostProgram [.bok 1, .halt, .label 1] { opened [] with success := true },
        loadHostProgram [.bok 1, .halt, .label 1] (opened []),
        loadHostProgram [.bfail 1, .halt, .label 1] { opened [] with success := true },
        loadHostProgram [.bfail 1, .halt, .label 1] (opened [])]) = [3, 2, 2, 3] := by decide +kernel

/-! ### The instruction that runs first -/

/-- 30_encoding.md R76, 43_sequencer.md R129: INIT as the first instruction after reset. -/
theorem test_first_init : statusAfter (State.reset.withFetchWord 16 0x100) = some 0x0000000D#32 := by decide +kernel

/-- The RED_ON frame as the first instruction after reset. -/
theorem test_first_frame :
    (after (State.reset.withFetchWord 80 0x010600C20011E83A0000)).map (·.frame.toList) =
      some [0x01#8, 0x06#8, 0x00#8, 0xC2#8, 0x00#8, 0x11#8, 0xE8#8, 0x3A#8, 0x00#8, 0x00#8] := by decide +kernel

/-! ### States that meet the hypotheses of the statements -/

/-- A step that answers a next state, by evaluation. -/
theorem test_next_of_after {s : State} (h : (after s).isSome = true) : ∃ t, step s = .next t := by
  unfold after at h
  cases hs : step s with
  | next t => exact ⟨t, rfl⟩
  | fault r => simp [hs] at h
  | refused r => simp [hs] at h

/-- S is next with its draw, in a state of the sequencer, on an open block with legal parameters: what the exchange states'
statements ask of every case. -/
def Ready (d : Draw) (q : SeqState) (s : State) : Prop :=
  nextAgentStep s = .seq d ∧ s.state = q ∧ s.refused = false ∧ s.init = true ∧ s.params.legal = true

/-- A finished query whose response fills the buffer. -/
def fullResponse : State :=
  { opened [] with
    done := true
    success := true
    opL := 0x4#4
    respLen := 256#9
    respBuf := (List.range 256).map fun i => (i, 0x7E#8) }

/-- A refused block. -/
def refusedBlock (env : List AgentStep) : State :=
  { inState .dispatch 0x6#4 0x0A#8 dOk with refused := true, env := env }

/-- Bytes of a whole frame, split between the wire and the queue behind it. -/
def midFrame (env : List AgentStep) : State :=
  { inState .drain 0x3#4 0x11#8 dOk with
    env := env
    tmr := 20#32
    wireTx := (encodeCommand .redOn).toList.take 4
    txf := (encodeCommand .redOn).toList.drop 4 }

/-- The host at the line `o` of a program. -/
def hostAt (pre : List HostOp) (o : HostOp) (post : List HostOp) (s : State) : State :=
  { s with hostProg := expandProgram (pre ++ o :: post), hostPc := (expandProgram pre).length }

theorem test_hostAt_atLine (pre : List HostOp) (o : HostOp) (post : List HostOp) (s : State) :
    atLine pre o post (hostAt pre o post s) := ⟨rfl, rfl⟩

theorem test_meets_DecodeOfEncode :
    (Instr.sendRaw 0).wellFormed = true ∧ (Instr.sendRaw 255).wellFormed = true ∧ Instr.queryFrame.wellFormed = true := by decide

theorem test_meets_EncodeOfDecodedRequest :
    decodeRequest 0xFFFFF5FF#32 = .ok (.sendRaw 255) ∧ decodeRequest 0x00000100#32 = .ok .init := by decide

theorem test_meets_RequestIgnoresBits :
    (0xABCDE311#32).extractLsb' 0 12 = (0x00000311#32).extractLsb' 0 12 := by decide

theorem test_meets_CheckerAccepts :
    frameCheck [0x01#8, 0x06#8, 0x00#8, 0xC2#8, 0x00#8, 0x11#8, 0xE8#8, 0x3A#8, 0x00#8, 0x00#8] = .command .redOn ∧
    frameCheck [0xFF#8, 0x03#8, 0x00#8, 0x3F#8, 0x00#8, 0x00#8, 0x60#8, 0x18#8, 0x00#8, 0x00#8] = .query ∧
    encodeCommand .redOn = encodeCommand .redOn := by decide +kernel

/-- The ends of the range of payload bytes. -/
theorem test_meets_SerialGenerator : (0 : Nat) ≤ 6 ∧ (6 : Nat) ≤ 6 := by decide

/-- The ends of the register map's ranges: a write that has no effect, a read of an unassigned number. -/
theorem test_meets_HostRegisterMap :
    (∀ n ∈ [0x001#12, 0x002#12, 0x008#12, 0x0FF#12, 0x100#12, 0x1FF#12, 0xFFF#12],
      n ≠ 0x000#12 ∧ ¬(0x003 ≤ n.toNat ∧ n.toNat ≤ 0x007)) ∧
    (∀ n ∈ [0x008#12, 0x0FF#12, 0x200#12, 0xFFF#12], (0x008 ≤ n.toNat ∧ n.toNat < 0x100) ∨ 0x200 ≤ n.toNat) := by simp

/-- A host write to a CFG register, bare and as the next primitive of the host's program, changes it. -/
theorem test_meets_HostRegisterMap_step :
    (hostWrites 0x003#12 0x000001FF#32 (midFrame [.hostWrite 0x003#12 0x000001FF#32]) ∧
      nextAgentStep (midFrame [.hostWrite 0x003#12 0x000001FF#32]) ≠ .resetInput ∧
      (after (midFrame [.hostWrite 0x003#12 0x000001FF#32])).map (·.cfgPort) = some 0xFF#8) ∧
    (hostWrites 0x007#12 3#32 (hostAt [.wait] (.settle 3#32) [.halt] (midFrame [.hostProgram])) ∧
      nextAgentStep (hostAt [.wait] (.settle 3#32) [.halt] (midFrame [.hostProgram])) ≠ .resetInput ∧
      (after (hostAt [.wait] (.settle 3#32) [.halt] (midFrame [.hostProgram]))).map (·.cfgSettleMs) = some 3#16) :=
  ⟨⟨.inl rfl, by decide, by decide +kernel⟩, .inr ⟨rfl, rfl⟩, by decide, by decide +kernel⟩

theorem test_meets_ResponseBytesAreReadable :
    Machine.Inv fullResponse ∧ 0 < fullResponse.respLen.toNat ∧ 255 < fullResponse.respLen.toNat := by
  refine ⟨?_, by simp [fullResponse], by simp [fullResponse]⟩
  constructor
  case resp_cells => simp [fullResponse, Function.comp_def]
  all_goals simp [fullResponse, opened, closed, State.reset, inExchange, inQueryTail, respCap]
  decide

theorem test_meets_HostReadHasNoSideEffect : nextAgentStep (opened [.hostRead 0x001#12]) = .hostRead 0x001#12 := rfl

theorem test_meets_RequestIsAccepted :
    nextAgentStep (opened [.hostWrite 0x000#12 0x00000400#32]) = .hostWrite 0x000#12 0x00000400#32 ∧
    (opened [.hostWrite 0x000#12 0x00000400#32]).busy = false := ⟨rfl, rfl⟩

theorem test_meets_RequestWhileBusy :
    nextAgentStep (midFrame [.hostWrite 0x000#12 0x00000400#32]) = .hostWrite 0x000#12 0x00000400#32 ∧
    (midFrame [.hostWrite 0x000#12 0x00000400#32]).busy = true := ⟨rfl, rfl⟩

/-- The three clauses: a request in DISPATCH, a command's frame and the query's frame in ENCODE. -/
theorem test_meets_StepRuns :
    (nextAgentStep (inState .dispatch 0x5#4 0xFF#8 dOk) = .seq dOk ∧ (inState .dispatch 0x5#4 0xFF#8 dOk).refused = false ∧
      (inState .dispatch 0x5#4 0xFF#8 dOk).state = .dispatch ∧ decodeOpArg 0x5#4 0xFF#8 = .ok (.sendRaw 255)) ∧
    (nextAgentStep (inState .encode 0x3#4 0x60#8 dOk) = .seq dOk ∧ (inState .encode 0x3#4 0x60#8 dOk).refused = false ∧
      (inState .encode 0x3#4 0x60#8 dOk).state = .encode ∧ (inState .encode 0x3#4 0x60#8 dOk).argL = kindCode .lightOff) ∧
    (nextAgentStep (inState .encode 0x4#4 0x00#8 dOk) = .seq dOk ∧ (inState .encode 0x4#4 0x00#8 dOk).refused = false ∧
      (inState .encode 0x4#4 0x00#8 dOk).state = .encode ∧ (inState .encode 0x4#4 0x00#8 dOk).opL ≠ 0x3#4) := by decide

/-- The four reasons of R128, at the ends of their ranges. -/
theorem test_meets_MeaninglessRequest :
    (∀ p ∈ [(0x0#4, 0x00#8), (0x6#4, 0x0A#8), (0xF#4, 0xFF#8)], p.1 = 0x0#4 ∨ 6 ≤ (p.1 : BitVec 4).toNat) ∧
    (∀ p ∈ [(0x1#4, 0x01#8), (0x2#4, 0xFF#8), (0x4#4, 0x01#8)], (p.1 = 0x1#4 ∨ p.1 = 0x2#4 ∨ p.1 = 0x4#4) ∧ p.2 ≠ 0x00#8) ∧
    (0x14#8 ∉ [0x11#8, 0x12#8, 0x13#8, 0x21#8, 0x22#8, 0x23#8, 0x31#8, 0x32#8, 0x33#8, 0x60#8]) ∧
    nextAgentStep (inState .dispatch 0x3#4 0x14#8 dOk) = .seq dOk ∧ (inState .dispatch 0x3#4 0x14#8 dOk).state = .dispatch ∧
    (inState .dispatch 0x3#4 0x14#8 dOk).refused = false ∧ (inState .dispatch 0x5#4 0x01#8 dOk).argL ≠ 0x00#8 := by
  refine ⟨by simp, by simp, by decide, rfl, rfl, rfl, by decide⟩

/-- INIT: closed with a willing driver, closed with a failing one, open. -/
theorem test_meets_Init :
    ((closedDispatch 0x1#4 0x00#8 dOk).init = false ∧ (closedDispatch 0x1#4 0x00#8 dOk).draw.drv = .drvOk) ∧
    ((withDraw { dOk with drv := .drvFail } (closed [])).init = false ∧
      (withDraw { dOk with drv := .drvFail } (closed [])).draw.drv = .drvFail) ∧
    (opened []).init = true := by decide

/-- DEINIT, the commands and the query: both session states. -/
theorem test_meets_session : (opened []).init = true ∧ (closed []).init = false := by decide

theorem test_meets_SendRaw : (0 : Nat) = 0 ∧ (1 : Nat) ≠ 0 ∧ (255 : Nat) ≠ 0 := by decide

theorem test_meets_InstructionsLeaveTheRest :
    (∃ t, exec .deinit (opened []) = .next t) ∧ (∃ t, exec .queryFrame (opened []) = .next t) ∧
    (∃ w, encode .deinit = .request w) ∧ (∃ f, encode .queryFrame = .frame f) :=
  ⟨⟨_, rfl⟩, ⟨_, rfl⟩, ⟨_, rfl⟩, ⟨_, rfl⟩⟩

/-- WRITE: the last room in the FIFO, a full write, the shortest and the longest short write, a transport error. -/
theorem test_meets_Write :
    (Ready dOk .write { writeWith (.ok 10) with txf := List.replicate 6 0x00#8 } ∧
      ({ writeWith (.ok 10) with txf := List.replicate 6 0x00#8 } : State).txf.length + 10 ≤ par.txDepth) ∧
    (Ready { dOk with wr := .ok 0 } .write (writeWith (.ok 0)) ∧ ((0 : Fin 11)).val < 10) ∧
    (Ready { dOk with wr := .ok 9 } .write (writeWith (.ok 9)) ∧ ((9 : Fin 11)).val < 10) ∧
    Ready { dOk with wr := .err 10 } .write (writeWith (.err 10)) := by
  unfold Ready
  decide +kernel

/-- The six ways S waits. -/
theorem test_meets_SequencerWaits :
    (par.txDepth < ({ writeWith (.ok 10) with txf := List.replicate 7 0x00#8 } : State).txf.length + 10) ∧
    ((midFrame [.seq dOk]).state = .drain ∧ (midFrame [.seq dOk]).txf ≠ [] ∧ (midFrame [.seq dOk]).tmr ≠ 0x00000000#32) ∧
    (({ inState .settle 0x4#4 0x00#8 dOk with tmr := 1#32 } : State).tmr ≠ 0x00000000#32) ∧
    ((readWith [] 1#32 .rdOk).rxf = [] ∧ (readWith [] 1#32 .rdOk).tmr ≠ 0x00000000#32) ∧
    (opened [.seq dOk]).state = .idle ∧ (refusedBlock [.seq dOk]).refused = true := by decide +kernel

/-- DRAIN of a command: drained, timed out. -/
theorem test_meets_DrainEndsACommand :
    (Ready dOk .drain (inState .drain 0x3#4 0x11#8 dOk) ∧ (inState .drain 0x3#4 0x11#8 dOk).opL = 0x3#4 ∧
      (inState .drain 0x3#4 0x11#8 dOk).txf = []) ∧
    (Ready dOk .drain { midFrame [.seq dOk] with tmr := 0#32 } ∧ ({ midFrame [.seq dOk] with tmr := 0#32 } : State).txf ≠ [] ∧
      ({ midFrame [.seq dOk] with tmr := 0#32 } : State).tmr = 0x00000000#32) := by
  unfold Ready
  decide +kernel

/-- DRAIN of a query: drained, timed out; FLUSH. -/
theorem test_meets_DrainAndFlush :
    (Ready dOk .drain (inState .drain 0x4#4 0x00#8 dOk) ∧ (inState .drain 0x4#4 0x00#8 dOk).txf = []) ∧
    (Ready dOk .drain { inState .drain 0x4#4 0x00#8 dOk with txf := [0x00#8] } ∧
      ({ inState .drain 0x4#4 0x00#8 dOk with txf := [0x00#8] } : State).tmr = 0x00000000#32) ∧
    Ready dOk .flush (inState .flush 0x4#4 0x00#8 dOk) := by
  unfold Ready
  decide +kernel

theorem test_meets_Settle :
    Ready dOk .settle (inState .settle 0x4#4 0x00#8 dOk) ∧ (inState .settle 0x4#4 0x00#8 dOk).tmr = 0x00000000#32 := by
  unfold Ready
  decide +kernel

/-- READ of one byte and of more than fit, and FALLBACK. -/
theorem test_meets_ReadCaptures :
    (Ready dOk .read (readWith [0x7E#8] 1#32 .rdOk) ∧ (readWith [0x7E#8] 1#32 .rdOk).rxf ≠ []) ∧
    (Ready dOk .read (readWith (List.replicate 257 0x7E#8) 0#32 .rdOk) ∧
      (readWith (List.replicate 257 0x7E#8) 0#32 .rdOk).rxf ≠ []) ∧
    (Ready dOk .fallback { inState .fallback 0x4#4 0x00#8 dOk with rxf := [0x7E#8] } ∧ dOk.rd = .rdOk) := by
  unfold Ready
  decide +kernel

/-- READ timed out and READ failing, CHECK with and without bytes, FALLBACK without bytes and failing. -/
theorem test_meets_FallbackPath :
    (Ready dOk .read (readWith [] 0#32 .rdOk) ∧ (readWith [] 0#32 .rdOk).rxf = [] ∧ (readWith [] 0#32 .rdOk).tmr = 0x00000000#32) ∧
    (Ready { dOk with rd := .rdErr } .read (readWith [0x01#8] 500#32 .rdErr) ∧ (readWith [0x01#8] 500#32 .rdErr).rxf ≠ []) ∧
    (Ready dOk .check { inState .check 0x4#4 0x00#8 dOk with rxf := [0x7E#8] } ∧
      ({ inState .check 0x4#4 0x00#8 dOk with rxf := [0x7E#8] } : State).rxf ≠ []) ∧
    (Ready dOk .check (inState .check 0x4#4 0x00#8 dOk) ∧ (inState .check 0x4#4 0x00#8 dOk).rxf = []) ∧
    (Ready dOk .fallback (inState .fallback 0x4#4 0x00#8 dOk) ∧ (inState .fallback 0x4#4 0x00#8 dOk).rxf = []) ∧
    Ready { dOk with rd := .rdErr } .fallback (inState .fallback 0x4#4 0x00#8 { dOk with rd := .rdErr }) := by
  unfold Ready
  decide +kernel

/-- Parameters outside their constraints: no ticks. The three steps that read them. -/
theorem test_meets_IllegalConfiguration :
    ({ par with ticksPerMs := 0 } : Params).legal = false ∧
    (∀ q ∈ [SeqState.write, .flush, .settle],
      nextAgentStep ({ inState q 0x4#4 0x00#8 dOk with params := { par with ticksPerMs := 0 } }) = .seq dOk ∧
      (inState q 0x4#4 0x00#8 dOk).refused = false ∧ (inState q 0x4#4 0x00#8 dOk).state = q ∧
      (inState q 0x4#4 0x00#8 dOk).txf.length + 10 ≤ par.txDepth ∧ (inState q 0x4#4 0x00#8 dOk).tmr = 0x00000000#32) := by
  decide +kernel

/-- LT with a byte to send, without one, and on a closed session. -/
theorem test_meets_LineTransmitter :
    nextAgentStep (midFrame [.lineTx]) = .lineTx ∧ (midFrame [.lineTx]).init = true ∧
    (midFrame [.lineTx]).txf = [0x00#8, 0x11#8, 0xE8#8, 0x3A#8, 0x00#8, 0x00#8] ∧
    nextAgentStep (opened [.lineTx]) = .lineTx ∧ (opened [.lineTx]).txf = [] ∧ (closed [.lineTx]).init = false := by
  decide +kernel

/-- RD with one place left in RXF, with none, and on a closed session. -/
theorem test_meets_Receive :
    nextAgentStep (opened [.receive 0x55#8]) = .receive 0x55#8 ∧ (opened [.receive 0x55#8]).params.legal = true ∧
    ({ opened [.receive 0x55#8] with rxf := List.replicate 511 0x00#8 } : State).rxf.length < par.rxDepth ∧
    par.rxDepth ≤ ({ opened [.receive 0x55#8] with rxf := List.replicate 512 0x00#8 } : State).rxf.length ∧
    (closed [.receive 0x55#8]).init = false := by decide +kernel

theorem test_meets_Tick :
    nextAgentStep (opened [.tick]) = .tick ∧ (opened [.tick]).tmr = 0x00000000#32 ∧
    nextAgentStep ({ opened [.tick] with tmr := 1#32 }) = .tick ∧
    ({ opened [.tick] with tmr := 1#32 } : State).tmr ≠ 0x00000000#32 := by decide

theorem test_meets_ResetInput : nextAgentStep (midFrame [.resetInput]) = .resetInput := rfl

/-- A state of the block in the middle of a command, which steps on: for EveryStepKeepsTheInvariant,
EveryStepOfABlockAnswersANextState, EveryStepKeepsTheBufferCanonical, StateMovesAlongTheEdges, OnlyWriteQueuesBytes and
WireGrowsOnlyFromTheQueue. -/
theorem test_meets_Inv :
    Machine.Inv (midFrame [.lineTx]) ∧ (∃ t, step (midFrame [.lineTx]) = .next t) ∧ nextAgentStep (midFrame [.lineTx]) ≠ .resetInput ∧
    (midFrame [.lineTx]).respBuf.wf = true ∧ (midFrame [.lineTx]).busy = true := by
  refine ⟨?_, test_next_of_after (by decide +kernel), by decide, by decide, by decide⟩
  constructor <;> decide +kernel

theorem test_meets_FaultAndRefusedAreSticky :
    (refusedBlock [.seq dOk]).refused = true ∧ (∃ t, step (refusedBlock [.seq dOk]) = .next t) ∧
    ({ midFrame [.tick] with fault := true } : State).fault = true ∧
    (∃ t, step { midFrame [.tick] with fault := true } = .next t) :=
  ⟨rfl, test_next_of_after (by decide +kernel), rfl, test_next_of_after (by decide +kernel)⟩

theorem test_meets_RefusedBlockIsStuck :
    Machine.Inv (refusedBlock [.hostWrite 0x000#12 0x00000100#32]) ∧
    (refusedBlock [.hostWrite 0x000#12 0x00000100#32]).refused = true ∧
    (∃ t, step (refusedBlock [.hostWrite 0x000#12 0x00000100#32]) = .next t) ∧
    nextAgentStep (refusedBlock [.hostWrite 0x000#12 0x00000100#32]) ≠ .resetInput := by
  refine ⟨?_, rfl, test_next_of_after (by decide +kernel), by decide⟩
  constructor <;> decide +kernel

/-- The four ways STATE moves: S from DISPATCH to ENCODE, the host's program writing CMD, a bare write, the reset input. -/
theorem test_meets_StateMoves :
    (Machine.Inv (inState .dispatch 0x4#4 0x00#8 dOk) ∧
      (after (inState .dispatch 0x4#4 0x00#8 dOk)).map (·.state) = some .encode) ∧
    (Machine.Inv (hostAt [.wait] .init [.halt] (opened [.hostProgram])) ∧
      hostWrites 0x000#12 0x00000100#32 (hostAt [.wait] .init [.halt] (opened [.hostProgram])) ∧
      (after (hostAt [.wait] .init [.halt] (opened [.hostProgram]))).map (·.state) = some .dispatch) ∧
    (Machine.Inv (opened [.hostWrite 0x000#12 0x00000400#32]) ∧
      (after (opened [.hostWrite 0x000#12 0x00000400#32])).map (·.state) = some .dispatch) ∧
    (after (midFrame [.resetInput])).map (·.state) = some .idle := by
  refine ⟨⟨?_, by decide +kernel⟩, ⟨?_, .inr ⟨rfl, rfl⟩, by decide +kernel⟩, ⟨?_, by decide +kernel⟩, by decide +kernel⟩
  all_goals constructor <;> decide +kernel

/-- S in WRITE, its next step a short write of three bytes. -/
theorem test_meets_OnlyWriteQueuesBytes :
    Machine.Inv (writeWith (.ok 3)) ∧ nextAgentStep (writeWith (.ok 3)) = .seq { dOk with wr := .ok 3 } ∧
    (after (writeWith (.ok 3))).map (·.txf) = some [0x01#8, 0x06#8, 0x00#8] := by
  refine ⟨?_, rfl, by decide +kernel⟩
  constructor <;> decide +kernel

/-- S enabled in a state of the block. -/
theorem test_meets_ExchangeTakesAtMostNineSteps :
    Machine.Inv (inState .check 0x4#4 0x00#8 dOk) ∧ (∃ t, step (inState .check 0x4#4 0x00#8 dOk) = .next t) ∧
    nextAgentStep (inState .check 0x4#4 0x00#8 dOk) = .seq dOk ∧ seqEnabled (inState .check 0x4#4 0x00#8 dOk) = true ∧
    (inState .check 0x4#4 0x00#8 dOk).busy = true := by
  refine ⟨?_, test_next_of_after (by decide +kernel), rfl, by decide, rfl⟩
  constructor <;> decide +kernel

/-- A step that opens the session and one that closes it. -/
theorem test_meets_SessionChanges :
    nextAgentStep (closedDispatch 0x1#4 0x00#8 dOk) = .seq dOk ∧ nextAgentStep (inState .dispatch 0x2#4 0x00#8 dOk) = .seq dOk ∧
    (after (closedDispatch 0x1#4 0x00#8 dOk)).map (·.init) = some true ∧
    (after { closedDispatch 0x1#4 0x00#8 dOk with cfgPort := 2#8 }).map (·.portS) = some 2#8 ∧
    (after (inState .dispatch 0x2#4 0x00#8 dOk)).map (·.init) = some false := by decide +kernel

/-- The frame on the wire and behind it is a whole valid frame; the next step is S's with a full write, or LT's. -/
theorem test_meets_WireCarriesWholeValidFrames :
    Machine.Inv (midFrame [.seq dOk]) ∧ wholeFrames ((midFrame [.seq dOk]).wireTx ++ (midFrame [.seq dOk]).txf) ∧
    (∃ t, step (midFrame [.seq dOk]) = .next t) ∧
    (∀ d : Draw, nextAgentStep (midFrame [.seq dOk]) = .seq d → d.wr = .ok 10 ∧ ¬ dropsQueue (midFrame [.seq dOk])) := by
  refine ⟨by constructor <;> decide +kernel, ⟨[encodeCommand .redOn], ?_, by decide +kernel⟩, test_next_of_after (by decide +kernel), ?_⟩
  · intro f hf r
    rw [List.mem_singleton.1 hf]
    cases r <;> decide +kernel
  · intro d hd
    cases hd
    exact ⟨rfl, fun h => by cases h.1⟩

theorem test_meets_FailuresShowNoResponse :
    ∃ t, Sys2Proof.core.run 1 { State.reset with env := [.hostWrite 0x000#12 0x00000100#32] } = .next t ∧ t.success = false :=
  ⟨_, rfl, rfl⟩

/-- The steps of S, LT and TK in turn. -/
def turns (n : Nat) : AgentStep :=
  if n % 3 = 0 then .seq dOk else if n % 3 = 1 then .lineTx else .tick

theorem test_meets_FairScheduleReachesDone :
    Machine.Inv (inState .dispatch 0x3#4 0x11#8 dOk) ∧ (inState .dispatch 0x3#4 0x11#8 dOk).busy = true ∧
    FairSchedule turns (inState .dispatch 0x3#4 0x11#8 dOk) := by
  refine ⟨by constructor <;> decide +kernel, rfl, ⟨fun n => ⟨3 * n, by omega, fun t _ _ => ?_⟩,
    fun n => ⟨3 * n + 1, by omega, fun t _ _ => ?_⟩, fun n => ⟨3 * n + 2, by omega, fun t _ _ => ?_⟩, fun n => ?_⟩⟩
  · have h : 3 * n % 3 = 0 := by omega
    simp [turns, h, isSeqStep]
  · have h : (3 * n + 1) % 3 = 1 := by omega
    simp [turns, h]
  · have h : (3 * n + 2) % 3 = 2 := by omega
    simp [turns, h]
  · unfold turns
    split
    · simp
    · split <;> simp

/-- An idle open block is a state of the block, whatever its environment. -/
theorem test_opened_inv (env : List AgentStep) : Machine.Inv (opened env) := by
  constructor <;> first
    | exact (by decide : par.legal = true)
    | simp [opened, closed, State.reset, inExchange, inQueryTail, respCap]

/-- A healthy LIGHT_OFF command from its acceptance. -/
def commandSchedule : List AgentStep :=
  [AgentStep.hostWrite 0x000#12 (0x00000300#32 ||| (kindCode .lightOff).setWidth 32), AgentStep.seq dOk, AgentStep.seq dOk,
    AgentStep.seq dOk] ++ List.replicate 10 AgentStep.lineTx ++ [AgentStep.seq dOk] ++ []

theorem test_meets_HealthyCommand :
    Machine.Inv (opened commandSchedule) ∧ (opened commandSchedule).busy = false ∧ (opened commandSchedule).init = true ∧
    (opened commandSchedule).txf = [] ∧ dOk.wr = .ok 10 ∧ (opened commandSchedule).env = commandSchedule :=
  ⟨test_opened_inv _, rfl, rfl, rfl, rfl, rfl⟩

/-- A healthy query from its acceptance, with a reply of one byte, at the default settle delay of ten ticks. -/
def querySchedule : List AgentStep :=
  [AgentStep.hostWrite 0x000#12 0x00000400#32, AgentStep.seq dOk, AgentStep.seq dOk, AgentStep.seq dOk] ++
    List.replicate 10 AgentStep.lineTx ++ [AgentStep.seq dOk, AgentStep.seq dOk] ++ [0x7E#8].map AgentStep.receive ++
    List.replicate 10 AgentStep.tick ++ [AgentStep.seq dOk, AgentStep.seq dOk] ++ []

theorem test_meets_HealthyQuery :
    Machine.Inv (opened querySchedule) ∧ (opened querySchedule).busy = false ∧ (opened querySchedule).init = true ∧
    (opened querySchedule).txf = [] ∧ dOk.wr = .ok 10 ∧ dOk.rd = .rdOk ∧ [0x7E#8] ≠ [] ∧ [0x7E#8].length ≤ 256 ∧
    (opened querySchedule).cfgSettleMs.toNat * (opened querySchedule).params.ticksPerMs = 10 ∧
    (opened querySchedule).env = querySchedule :=
  ⟨test_opened_inv _, rfl, rfl, rfl, rfl, rfl, by simp, by simp, rfl, rfl⟩

/-- A host at the start of a `wait`. -/
def waiting (s : State) : State := loadHostProgram [.wait, .halt] s

theorem test_meets_HostWaitPollsDone :
    (waiting (opened [])).hostPc = 0 ∧ (waiting (opened [])).hostProg[0]? = some (.read 0x001#12) ∧
    (waiting (opened [])).hostProg[0 + 1]? = some (.branchIf 2 false (.back 1)) := ⟨rfl, rfl, rfl⟩

/-- Both places of the loop. -/
theorem test_meets_WaitNeverEnds :
    Machine.Inv (waiting (refusedBlock [.hostProgram])) ∧ (waiting (refusedBlock [.hostProgram])).refused = true ∧
    hostWaitsAt 0 (waiting (refusedBlock [.hostProgram])) ∧
    hostWaitsAt 0 { waiting (refusedBlock [.hostProgram]) with hostPc := 1 } ∧
    (∃ t, step (waiting (refusedBlock [.hostProgram])) = .next t) ∧
    nextAgentStep (waiting (refusedBlock [.hostProgram])) = .hostProgram := by
  refine ⟨by constructor <;> decide +kernel, rfl, ⟨rfl, rfl, .inl rfl⟩, ⟨rfl, rfl, .inr ⟨rfl, rfl⟩⟩,
    test_next_of_after (by decide +kernel), rfl⟩

/-- Lines that write CMD, at the first place and at later ones, with the ends of the range of `send_raw`. -/
theorem test_meets_HostProgramLines :
    atLine [] .init [.wait, .halt] (hostAt [] .init [.wait, .halt] (closed [])) ∧
    atLine [.wait] .deinit [] (hostAt [.wait] .deinit [] (opened [])) ∧
    atLine [.init, .wait] (.sendCommand .lightOff) [.halt] (hostAt [.init, .wait] (.sendCommand .lightOff) [.halt] (opened [])) ∧
    (Kind.lightOff, 0x00000360#32) ∈ [(Kind.redOn, 0x00000311#32), (.lightOff, 0x00000360#32)] ∧
    atLine [.label 0] .queryDevices [.jmp 0] (hostAt [.label 0] .queryDevices [.jmp 0] (opened [])) ∧
    ((0 : Nat) < 256 ∧ atLine [.bok 0] (.sendRaw 0) [.label 0] (hostAt [.bok 0] (.sendRaw 0) [.label 0] (opened []))) ∧
    ((255 : Nat) < 256 ∧ atLine [.bok 0] (.sendRaw 255) [.label 0] (hostAt [.bok 0] (.sendRaw 255) [.label 0] (opened []))) ∧
    atLine [.bok 0] (.cmd 0xFFFFFFFF#32) [.label 0] (hostAt [.bok 0] (.cmd 0xFFFFFFFF#32) [.label 0] (opened [])) :=
  ⟨⟨rfl, rfl⟩, ⟨rfl, rfl⟩, ⟨rfl, rfl⟩, by decide, ⟨rfl, rfl⟩, ⟨by decide, rfl, rfl⟩, ⟨by decide, rfl, rfl⟩, rfl, rfl⟩

/-- The pseudo-instructions: those that name a label, each with the label in place, and the others. -/
theorem test_meets_HostPseudoInstructions :
    (∀ o ∈ [HostOp.bfail 1, .bok 1, .jmp 1],
      atLine [.init, .wait] o [.halt, .label 1, .halt] (hostAt [.init, .wait] o [.halt, .label 1, .halt] (opened [])) ∧
      ∃ q, labelAt 1 q (hostAt [.init, .wait] o [.halt, .label 1, .halt] (opened []))) ∧
    (∀ o ∈ [HostOp.cfg 2#32 17#32 16#32 9600#32, .settle 10#32, .halt, .label 1],
      atLine [.wait] o [.halt] (hostAt [.wait] o [.halt] (opened []))) ∧
    (opened []).success = false ∧ ({ opened [] with success := true } : State).success = true := by
  refine ⟨fun o ho => ⟨⟨rfl, rfl⟩, _, [.init, .wait, o, .halt], [.halt], rfl, ?_, rfl⟩, fun _ _ => ⟨rfl, rfl⟩, rfl, rfl⟩
  simp only [List.mem_cons, List.not_mem_nil, or_false] at ho
  rcases ho with rfl | rfl | rfl <;> decide

end Sys2Proof.Tests
end

/-! Liveness under fair schedules (00_scope.md R14; 43_sequencer.md R145). The measure is `rank`: the sequencer steps left, then the
bytes and ticks that S may be waiting for. No agent raises it while a request is pending; in every pending state S, LT or TK is
enabled, stays enabled while the rank stands, and lowers the rank when it steps. -/

namespace Sys2Proof.Machine

/-! ### Each state of the sequencer answers a next state -/

theorem stepDispatch_total (s : State) : ∃ t, stepDispatch s = .next t := by
  unfold stepDispatch
  cases fetchRequest s with
  | ok i => exact exec_total i s
  | error e => exact ⟨_, rfl⟩

theorem stepWrite_total {s : State} (hl : s.params.legal = true) (hi : s.init = true) : ∃ t, stepWrite s = .next t := by
  unfold stepWrite
  rw [withLegalParams_legal hl]
  cases hw : s.draw.wr with
  | ok n =>
    rw [transportWrite_ok hi hw]
    by_cases hn : n.val = frameLen
    · exact ⟨_, by simp [hn]; rfl⟩
    · exact ⟨_, by simp [hn]; rfl⟩
  | err j =>
    rw [transportWrite_err hi hw]
    exact ⟨_, rfl⟩

theorem stepDrain_total {s : State} (hi : s.init = true) : ∃ t, stepDrain s = .next t := by
  unfold stepDrain
  rw [transportDrained_open hi]
  exact ⟨_, rfl⟩

theorem stepFlush_total {s : State} (hl : s.params.legal = true) (hi : s.init = true) : ∃ t, stepFlush s = .next t := by
  unfold stepFlush
  rw [withLegalParams_legal hl, transportFlush_open hi]
  exact ⟨_, rfl⟩

theorem stepSettle_total {s : State} (hl : s.params.legal = true) : ∃ t, stepSettle s = .next t :=
  ⟨_, withLegalParams_legal hl _⟩

/-- On an open session a read answers at most 256 bytes, which the response buffer can hold. -/
theorem transportRead_fits {s : State} (hi : s.init = true) :
    ∃ bs u, transportRead respCap s = .ok (bs, u) ∧ bs.length ≤ 256 := by
  cases hd : s.draw.rd with
  | rdOk => exact ⟨_, _, transportRead_ok hi hd _, by simp [respCap]⟩
  | rdErr => exact ⟨_, _, transportRead_err hi hd _, by simp⟩

theorem capture_total {bs : List Byte} (h : bs.length ≤ 256) (s : State) : ∃ t, capture bs s = .next t := by
  obtain ⟨m, -, hc⟩ := capture_of_le bs s h
  exact ⟨_, hc⟩

theorem stepRead_total {s : State} (hi : s.init = true) : ∃ t, stepRead s = .next t := by
  obtain ⟨bs, u, hr, hlen⟩ := transportRead_fits hi
  unfold stepRead
  rw [hr]
  cases bs with
  | nil => exact ⟨_, rfl⟩
  | cons b bs => exact capture_total hlen u

theorem stepFallback_total {s : State} (hi : s.init = true) : ∃ t, stepFallback s = .next t := by
  obtain ⟨bs, u, hr, hlen⟩ := transportRead_fits hi
  unfold stepFallback
  rw [hr]
  cases bs with
  | nil => exact ⟨_, rfl⟩
  | cons b bs => exact capture_total hlen u

theorem stepCheck_total {s : State} (hi : s.init = true) : ∃ t, stepCheck s = .next t := by
  unfold stepCheck
  rw [transportBuffered_open hi]
  exact ⟨_, rfl⟩

/-- ENCODE of a command of one of the ten kinds, or of a query, runs a frame instruction. -/
theorem fetchFrame_of_exchange_op {s : State}
    (h : (s.opL = 0x3#4 ∧ (kindOf s.argL).isSome = true) ∨ (s.opL = 0x4#4 ∧ s.argL = 0x00#8)) :
    ∃ i p, fetchFrame s = some i ∧ payloadOf i = some p := by
  rcases h with ⟨ho, hk⟩ | ⟨ho, -⟩
  · obtain ⟨k, hk⟩ := Option.isSome_iff_exists.1 hk
    exact ⟨commandFrameOf k, _, by simp [fetchFrame, ho, hk], payloadOf_commandFrameOf k⟩
  · exact ⟨.queryFrame, _, by simp [fetchFrame, ho], rfl⟩

/-! ### A pending request and its rank -/

/-- A request is accepted, not refused and not done: what of the invariant `Inv` its progress rests on. -/
structure Pending (s : State) : Prop where
  legal : s.params.legal = true
  busy : s.busy = true
  not_refused : s.refused = false
  not_idle : s.state ≠ .idle
  exchange_open : inExchange s.state = true → s.init = true
  exchange_op : inExchange s.state = true →
    (s.opL = 0x3#4 ∧ (kindOf s.argL).isSome = true) ∨ (s.opL = 0x4#4 ∧ s.argL = 0x00#8)

/-- What of the state stays while one request runs, whichever state S is in. -/
structure Request where
  params : Params
  init : Bool
  busy : Bool
  refused : Bool
  opL : BitVec 4
  argL : Byte

/-- The request of a state. -/
def requestOf (s : State) : Request where
  params := s.params
  init := s.init
  busy := s.busy
  refused := s.refused
  opL := s.opL
  argL := s.argL

@[simp] theorem requestOf_eq_iff {s u : State} : requestOf u = requestOf s ↔
    u.params = s.params ∧ u.init = s.init ∧ u.busy = s.busy ∧ u.refused = s.refused ∧ u.opL = s.opL ∧ u.argL = s.argL := by
  simp [requestOf]

/-- The same request stays pending in any state but IDLE, if it does not enter an exchange there. -/
theorem Pending.of_requestOf_eq {s u : State} (hp : Pending s) (hreq : requestOf u = requestOf s) (hidle : u.state ≠ .idle)
    (hx : inExchange u.state = true → inExchange s.state = true) : Pending u := by
  obtain ⟨hparams, hinit, hbusy, hrefused, hop, harg⟩ := requestOf_eq_iff.1 hreq
  exact {
    legal := hparams ▸ hp.legal
    busy := hbusy ▸ hp.busy
    not_refused := hrefused ▸ hp.not_refused
    not_idle := hidle
    exchange_open := fun h => hinit ▸ hp.exchange_open (hx h)
    exchange_op := fun h => by rw [hop, harg]; exact hp.exchange_op (hx h) }

theorem Inv.pending {s : State} (h : Inv s) (hb : s.busy = true) (hr : s.refused = false) : Pending s where
  legal := h.legal
  busy := hb
  not_refused := hr
  not_idle := fun hs => by simp [h.idle_busy.1 hs] at hb
  exchange_open := h.exchange_open
  exchange_op := h.exchange_op

/-- The measure of a pending request: the steps S has left, then what it may wait for, the bytes in TXF and the ticks in TMR. -/
def rank (s : State) : ℕ ×ₗ ℕ := toLex (stepsLeft s.state, s.txf.length + s.tmr.toNat)

theorem rank_lt_of_stepsLeft_lt {s u : State} (h : stepsLeft u.state < stepsLeft s.state) : rank u < rank s :=
  Prod.Lex.toLex_lt_toLex.2 (.inl h)

/-- What progress below `r` means: the request has ended or is refused, or it is pending with a lower rank. -/
def EndedOrBelow (r : ℕ ×ₗ ℕ) (u : State) : Prop :=
  (u.done = true ∨ u.refused = true) ∨ (Pending u ∧ rank u < r)

theorem endedOrBelow_finish (r : ℕ ×ₗ ℕ) (ok : Bool) (e : ErrCode) (s : State) : EndedOrBelow r (finish ok e s) :=
  .inl (.inl rfl)

/-! ### Steps that leave the request where it is -/

/-- The same request at the same place; what S waits for has not grown, and bytes that came in are still there. -/
structure Waits (s u : State) : Prop where
  request_eq : requestOf u = requestOf s
  state_eq : u.state = s.state
  txf_le : u.txf.length ≤ s.txf.length
  tmr_le : u.tmr.toNat ≤ s.tmr.toNat
  rxf_ne_nil : s.rxf ≠ [] → u.rxf ≠ []

theorem Waits.trans {s u v : State} (h : Waits s u) (k : Waits u v) : Waits s v where
  request_eq := k.request_eq.trans h.request_eq
  state_eq := k.state_eq.trans h.state_eq
  txf_le := k.txf_le.trans h.txf_le
  tmr_le := k.tmr_le.trans h.tmr_le
  rxf_ne_nil := fun hs => k.rxf_ne_nil (h.rxf_ne_nil hs)

theorem waits_advance (s : State) : Waits s (advance s) := by constructor <;> simp

theorem waits_atSeq (d : Draw) (s : State) : Waits s (atSeq d s) := by constructor <;> simp

theorem waits_lineTxStep (s : State) : Waits s (lineTxStep s) := by
  rcases lineTxStep_cases s with ⟨-, b, rest, hx, he⟩ | ⟨-, he⟩ <;> rw [he]
  · constructor <;> simp [hx]
  · constructor <;> simp

theorem waits_tickStep (s : State) : Waits s (tickStep s) := by
  rcases tickStep_cases s with ⟨-, he⟩ | ⟨ht, he⟩ <;> rw [he]
  · constructor <;> simp
  · have htmr : (s.tmr - 0x00000001#32).toNat ≤ s.tmr.toNat := by bv_omega
    constructor <;> simp only [requestOf_eq_iff, le_refl, and_self, htmr, imp_self]

theorem waits_hostWrite {s : State} (hb : s.busy = true) (n : RegNum) (v : Word) : Waits s (hostWrite n v s) := by
  rcases hostWrite_cases n v s with ⟨-, hf, -⟩ | ⟨-, -, he⟩ | ⟨_, _, _, _, _, he⟩
  · simp [hb] at hf
  · rw [he]; constructor <;> simp
  · rw [he]; constructor <;> simp

theorem waits_hostProgramStep {s : State} (hb : s.busy = true) : Waits s (hostProgramStep s) := by
  obtain ⟨u, pc, v, hu, he⟩ := hostProgramStep_cases s
  have hw : Waits s u := by
    rcases hu with rfl | ⟨n, w, -, rfl⟩
    · constructor <;> simp
    · exact waits_hostWrite hb n w
  rw [he]
  exact hw.trans (by constructor <;> simp)

theorem receiveStep_waits {s : State} (hl : s.params.legal = true) (b : Byte) :
    ∃ u, receiveStep b s = .next u ∧ Waits s u := by
  have ht : ∃ u, receiveStep b s = .next u := by
    unfold receiveStep
    rw [withLegalParams_legal hl]
    split <;> exact ⟨_, rfl⟩
  obtain ⟨u, hu⟩ := ht
  refine ⟨u, hu, ?_⟩
  rcases receiveStep_next hu with rfl | ⟨-, -, -, rfl⟩ <;> constructor <;> simp

theorem Waits.pending {s u : State} (h : Waits s u) (hp : Pending s) : Pending u :=
  hp.of_requestOf_eq h.request_eq (h.state_eq ▸ hp.not_idle) (h.state_eq ▸ id)

theorem Waits.rank_lt {s u : State} (h : Waits s u) (hlt : u.txf.length + u.tmr.toNat < s.txf.length + s.tmr.toNat) :
    rank u < rank s :=
  Prod.Lex.toLex_lt_toLex.2 (.inr ⟨by rw [h.state_eq], hlt⟩)

/-- Either what S may wait for has shrunk, or TXF and TMR hold as much as before. -/
theorem Waits.rank_lt_or_eq {s u : State} (h : Waits s u) :
    rank u < rank s ∨ (rank u = rank s ∧ u.txf.length = s.txf.length ∧ u.tmr.toNat = s.tmr.toNat) := by
  have htxf := h.txf_le
  have htmr := h.tmr_le
  by_cases hlt : u.txf.length + u.tmr.toNat < s.txf.length + s.tmr.toNat
  · exact .inl (h.rank_lt hlt)
  · have hx : u.txf.length = s.txf.length := by omega
    have ht : u.tmr.toNat = s.tmr.toNat := by omega
    exact .inr ⟨by simp only [rank, h.state_eq, hx, ht], hx, ht⟩

/-! ### Enabled steps of S -/

/-- S has taken an exchange from state `p` on to state `q`, which is nearer to its end. -/
theorem Pending.endedOrBelow_of_edge {s u : State} {p q : SeqState} (hp : Pending s) (hs : s.state = p) (hu : u.state = q)
    (hreq : requestOf u = requestOf s) (hx : inExchange p = true) (hq : q ≠ .idle) (hlt : stepsLeft q < stepsLeft p) :
    EndedOrBelow (rank s) u := by
  subst hs hu
  exact .inr ⟨hp.of_requestOf_eq hreq hq fun _ => hx, rank_lt_of_stepsLeft_lt hlt⟩

theorem stepDispatch_progress {s t : State} (hp : Pending s) (hs : s.state = .dispatch) (h : stepDispatch s = .next t) :
    EndedOrBelow (rank s) t := by
  rcases stepDispatch_next h with ⟨i, hi, he⟩ | ⟨e, -, rfl⟩
  · obtain ⟨hop, -, -, hpay⟩ := decodeOpArg_ok hi
    rcases exec_next he with ⟨-, -, -, rfl⟩ | ⟨-, -, rfl⟩ | ⟨-, e, -, rfl⟩ | ⟨hst, hinit, rfl⟩ | ⟨_, -, -, rfl⟩ | ⟨p, hsome, -⟩
    · exact endedOrBelow_finish ..
    · exact endedOrBelow_finish ..
    · exact endedOrBelow_finish ..
    · refine .inr ⟨?_, rank_lt_of_stepsLeft_lt (by rw [goTo_state, hs]; decide)⟩
      exact {
        legal := hp.legal
        busy := hp.busy
        not_refused := hp.not_refused
        not_idle := by simp
        exchange_open := fun _ => hinit
        exchange_op := fun _ => hop hst }
    · exact .inl (.inr rfl)
    · simp [hpay] at hsome
  · exact .inl (.inr rfl)

theorem stepEncode_progress {s : State} (hp : Pending s) (hs : s.state = .encode) :
    ∃ t, stepEncode s = .next t ∧ EndedOrBelow (rank s) t := by
  obtain ⟨i, p, hf, hi⟩ := fetchFrame_of_exchange_op (hp.exchange_op (by rw [hs]; rfl))
  have hstep : stepEncode s = exec i s := by simp only [stepEncode, hf]
  exact ⟨_, hstep.trans (exec_payload hi s),
    hp.endedOrBelow_of_edge (q := .write) hs rfl rfl rfl (by decide) (by decide)⟩

theorem stepWrite_progress {s t : State} (hp : Pending s) (hs : s.state = .write) (h : stepWrite s = .next t) :
    EndedOrBelow (rank s) t := by
  obtain ⟨-, ⟨-, rfl⟩ | ⟨-, -, rfl⟩ | ⟨-, -, _, _, -, -, rfl⟩⟩ := stepWrite_next h
  · exact endedOrBelow_finish ..
  · exact hp.endedOrBelow_of_edge (q := .drain) hs rfl rfl rfl (by decide) (by decide)
  · exact endedOrBelow_finish ..

theorem stepDrain_progress {s t : State} (hp : Pending s) (hs : s.state = .drain) (h : stepDrain s = .next t) :
    EndedOrBelow (rank s) t := by
  rcases stepDrain_next h with ⟨-, rfl⟩ | ⟨-, u, hu, ⟨-, rfl⟩ | ⟨-, rfl⟩⟩
  · exact endedOrBelow_finish ..
  · exact endedOrBelow_finish ..
  · refine hp.endedOrBelow_of_edge hs (goTo_state ..) ?_ rfl (by decide) (by decide)
    rcases hu with ⟨rfl, -⟩ | ⟨rfl, -⟩ <;> exact rfl

theorem stepFlush_progress {s t : State} (hp : Pending s) (hs : s.state = .flush) (h : stepFlush s = .next t) :
    EndedOrBelow (rank s) t := by
  obtain ⟨-, ⟨-, rfl⟩ | ⟨-, rfl⟩⟩ := stepFlush_next h
  · exact endedOrBelow_finish ..
  · exact hp.endedOrBelow_of_edge (q := .settle) hs rfl rfl rfl (by decide) (by decide)

theorem stepSettle_progress {s t : State} (hp : Pending s) (hs : s.state = .settle) (h : stepSettle s = .next t) :
    EndedOrBelow (rank s) t := by
  obtain ⟨-, rfl⟩ := stepSettle_next h
  exact hp.endedOrBelow_of_edge (q := .read) hs rfl rfl rfl (by decide) (by decide)

theorem stepRead_progress {s t : State} (hp : Pending s) (hs : s.state = .read) (h : stepRead s = .next t) :
    EndedOrBelow (rank s) t := by
  rcases stepRead_next h with ⟨-, rfl⟩ | ⟨-, -, rfl⟩ | ⟨-, -, -, _, -, rfl⟩
  · exact endedOrBelow_finish ..
  · exact hp.endedOrBelow_of_edge (q := .check) hs rfl rfl rfl (by decide) (by decide)
  · exact endedOrBelow_finish ..

theorem stepCheck_progress {s t : State} (hp : Pending s) (hs : s.state = .check) (h : stepCheck s = .next t) :
    EndedOrBelow (rank s) t := by
  rcases stepCheck_next h with ⟨-, rfl⟩ | ⟨-, -, rfl⟩ | ⟨-, -, rfl⟩
  · exact endedOrBelow_finish ..
  · exact hp.endedOrBelow_of_edge (q := .fallback) hs rfl rfl rfl (by decide) (by decide)
  · exact endedOrBelow_finish ..

theorem stepFallback_progress {s : State} (r : ℕ ×ₗ ℕ) {t : State} (h : stepFallback s = .next t) : EndedOrBelow r t := by
  rcases stepFallback_next h with ⟨-, rfl⟩ | ⟨-, -, rfl⟩ | ⟨-, -, -, _, -, rfl⟩ <;> exact endedOrBelow_finish ..

/-- Every enabled step of S takes a pending request on: it ends or refuses it, or leaves fewer steps (43_sequencer.md R145). -/
theorem seqBody_progress {s : State} (hp : Pending s) : ∃ t, seqBody s = .next t ∧ EndedOrBelow (rank s) t := by
  have hopen : ∀ q, s.state = q → inExchange q = true → s.init = true := fun q hq hx => hp.exchange_open (hq ▸ hx)
  unfold seqBody
  cases hs : s.state with
  | idle => exact absurd hs hp.not_idle
  | dispatch =>
    obtain ⟨t, ht⟩ := stepDispatch_total s
    exact ⟨t, ht, stepDispatch_progress hp hs ht⟩
  | encode => exact stepEncode_progress hp hs
  | write =>
    obtain ⟨t, ht⟩ := stepWrite_total hp.legal (hopen _ hs rfl)
    exact ⟨t, ht, stepWrite_progress hp hs ht⟩
  | drain =>
    obtain ⟨t, ht⟩ := stepDrain_total (hopen _ hs rfl)
    exact ⟨t, ht, stepDrain_progress hp hs ht⟩
  | flush =>
    obtain ⟨t, ht⟩ := stepFlush_total hp.legal (hopen _ hs rfl)
    exact ⟨t, ht, stepFlush_progress hp hs ht⟩
  | settle =>
    obtain ⟨t, ht⟩ := stepSettle_total hp.legal
    exact ⟨t, ht, stepSettle_progress hp hs ht⟩
  | read =>
    obtain ⟨t, ht⟩ := stepRead_total (hopen _ hs rfl)
    exact ⟨t, ht, stepRead_progress hp hs ht⟩
  | check =>
    obtain ⟨t, ht⟩ := stepCheck_total (hopen _ hs rfl)
    exact ⟨t, ht, stepCheck_progress hp hs ht⟩
  | fallback =>
    obtain ⟨t, ht⟩ := stepFallback_total (hopen _ hs rfl)
    exact ⟨t, ht, stepFallback_progress _ ht⟩

theorem agentStep_seq_progress {s : State} (hp : Pending s) (he : seqEnabled s = true) (d : Draw) :
    ∃ u, agentStep (.seq d) (advance s) = .next u ∧ EndedOrBelow (rank s) u := by
  obtain ⟨u, hu, hb⟩ := seqBody_progress ((waits_atSeq d s).pending hp)
  exact ⟨u, (seqStep_on (s := atSeq d s) he).trans hu, hb⟩

/-- Every step but the reset input answers, and takes a pending request on or leaves it where it is. -/
theorem agentStep_progress_or_waits {s : State} (hp : Pending s) {a : AgentStep} (ha : a ≠ .resetInput) :
    ∃ u, agentStep a (advance s) = .next u ∧ (EndedOrBelow (rank s) u ∨ Waits s u) := by
  have hw := waits_advance s
  cases a with
  | seq d =>
    cases he : seqEnabled s with
    | true =>
      obtain ⟨u, hu, hb⟩ := agentStep_seq_progress hp he d
      exact ⟨u, hu, .inl hb⟩
    | false => exact ⟨_, seqStep_off (s := atSeq d s) he, .inr (waits_atSeq d s)⟩
  | lineTx => exact ⟨_, rfl, .inr (hw.trans (waits_lineTxStep _))⟩
  | receive b =>
    obtain ⟨u, hu, hwu⟩ := receiveStep_waits (s := advance s) hp.legal b
    exact ⟨u, hu, .inr (hw.trans hwu)⟩
  | tick => exact ⟨_, rfl, .inr (hw.trans (waits_tickStep _))⟩
  | hostWrite n v => exact ⟨_, rfl, .inr (hw.trans (waits_hostWrite (s := advance s) hp.busy n v))⟩
  | hostRead n => exact ⟨_, rfl, .inr (hw.trans (by constructor <;> simp [hostReadStep]))⟩
  | hostProgram => exact ⟨_, rfl, .inr (hw.trans (waits_hostProgramStep (s := advance s) hp.busy))⟩
  | resetInput => exact absurd rfl ha

/-! ### The agents that bring a pending request on -/

/-- An agent that, once enabled, stays so while the rank stands, and takes a pending request on when it steps. -/
structure Drives (enabled : State → Bool) (mine : AgentStep → Bool) : Prop where
  stays : ∀ {s u : State}, Waits s u → rank u = rank s → enabled s = true → enabled u = true
  progress : ∀ {s : State} {a : AgentStep}, Pending s → enabled s = true → mine a = true →
    ∃ u, agentStep a (advance s) = .next u ∧ EndedOrBelow (rank s) u

theorem Waits.sizes_eq {s u : State} (h : Waits s u) (hr : rank u = rank s) :
    u.txf.length = s.txf.length ∧ u.tmr.toNat = s.tmr.toNat := by
  rcases h.rank_lt_or_eq with hlt | ⟨-, heq⟩
  · exact absurd hr hlt.ne
  · exact heq

theorem seq_drives : Drives seqEnabled isSeqStep where
  stays := fun {s u} h hr he => by
    obtain ⟨hx, ht⟩ := h.sizes_eq hr
    have htmr : u.tmr = s.tmr := BitVec.eq_of_toNat_eq ht
    have hempty : u.txf.isEmpty = s.txf.isEmpty := by
      rw [Bool.eq_iff_iff, List.isEmpty_iff_length_eq_zero, List.isEmpty_iff_length_eq_zero, hx]
    obtain ⟨hparams, -, -, hrefused, -, -⟩ := requestOf_eq_iff.1 h.request_eq
    unfold seqEnabled at he ⊢
    rw [hrefused, h.state_eq, hparams, hx, htmr, hempty]
    cases hs : s.state with
    | read =>
      simp only [hs, Bool.and_eq_true, Bool.or_eq_true, Bool.not_eq_true', List.isEmpty_eq_false_iff] at he ⊢
      obtain ⟨hnr, hready⟩ := he
      exact ⟨hnr, hready.imp_left h.rxf_ne_nil⟩
    | _ => simpa only [hs] using he
  progress := fun {s a} hp he ha => by
    cases a with
    | seq d => exact agentStep_seq_progress hp he d
    | _ => cases ha

theorem lineTx_drives : Drives ltEnabled (· == .lineTx) where
  stays := fun {s u} h hr he => by
    obtain ⟨hx, -⟩ := h.sizes_eq hr
    obtain ⟨-, hinit, -⟩ := requestOf_eq_iff.1 h.request_eq
    simpa [ltEnabled, hinit, ← List.length_pos_iff, hx] using he
  progress := fun {s a} hp he ha => by
    obtain rfl : a = .lineTx := by simpa using ha
    have hw := (waits_advance s).trans (waits_lineTxStep (advance s))
    refine ⟨_, rfl, .inr ⟨hw.pending hp, hw.rank_lt ?_⟩⟩
    obtain ⟨hinit, hne⟩ : s.init = true ∧ s.txf ≠ [] := by simpa [ltEnabled] using he
    rcases lineTxStep_cases (advance s) with ⟨-, b, rest, hx, hstep⟩ | ⟨hclosed | hempty, -⟩
    · rw [advance_txf] at hx
      simp [hstep, hx]
    · simp [hinit] at hclosed
    · exact absurd hempty hne

theorem tick_drives : Drives tkEnabled (· == .tick) where
  stays := fun {s u} h hr he => by
    have htmr : u.tmr = s.tmr := BitVec.eq_of_toNat_eq (h.sizes_eq hr).2
    simpa [tkEnabled, htmr] using he
  progress := fun {s a} hp he ha => by
    obtain rfl : a = .tick := by simpa using ha
    have hw := (waits_advance s).trans (waits_tickStep (advance s))
    refine ⟨_, rfl, .inr ⟨hw.pending hp, hw.rank_lt ?_⟩⟩
    have htmr : s.tmr ≠ 0x00000000#32 := by simpa [tkEnabled] using he
    rcases tickStep_cases (advance s) with ⟨hz, -⟩ | ⟨-, hstep⟩
    · exact absurd hz htmr
    · rw [hstep]
      simp only [advance_txf, advance_tmr]
      bv_omega

/-- Where S waits, it waits for LT (a full TXF in WRITE) or for TK (43_sequencer.md R142). -/
theorem Pending.some_agent_enabled {s : State} (hp : Pending s) :
    seqEnabled s = true ∨ ltEnabled s = true ∨ tkEnabled s = true := by
  have hnr := hp.not_refused
  by_cases ht : s.tmr = 0x00000000#32
  · cases hs : s.state with
    | idle => exact absurd hs hp.not_idle
    | write =>
      by_cases hx : s.txf = []
      · obtain ⟨-, -, -, hdepth⟩ := (Params.legal_iff _).1 hp.legal
        exact .inl (by simpa [seqEnabled, hnr, hs, hx, frameLen] using hdepth)
      · exact .inr (.inl (by simp [ltEnabled, hx, hp.exchange_open (by rw [hs]; rfl)]))
    | _ => exact .inl (by simp [seqEnabled, hnr, hs, ht])
  · exact .inr (.inr (by simp [tkEnabled, ht]))

/-! ### Runs of a fair schedule -/

theorem runOn_succ {σ : Nat → AgentStep} {s t u : State} {n : Nat} (hn : runOn σ s n = some t)
    (h : agentStep (σ n) (advance t) = .next u) : runOn σ s (n + 1) = some u := by
  simp [runOn, hn, h]

section
variable {σ : Nat → AgentStep} {s₀ s : State} {n : Nat} {enabled : State → Bool} {mine : AgentStep → Bool}

/-- While the schedule makes no progress, the request keeps its rank and the agent stays enabled. -/
theorem Drives.progress_or_stays (hd : Drives enabled mine) (hreset : ∀ m, σ m ≠ .resetInput) (hn : runOn σ s₀ n = some s)
    (hp : Pending s) (he : enabled s = true) (k : Nat) :
    (∃ m u, runOn σ s₀ m = some u ∧ EndedOrBelow (rank s) u) ∨
    (∃ u, runOn σ s₀ (n + k) = some u ∧ Pending u ∧ rank u = rank s ∧ enabled u = true) := by
  induction k with
  | zero => exact .inr ⟨s, hn, hp, rfl, he⟩
  | succ k ih =>
    rcases ih with hdone | ⟨u, hu, hpu, hru, heu⟩
    · exact .inl hdone
    · obtain ⟨v, hstep, hv⟩ := agentStep_progress_or_waits hpu (hreset (n + k))
      have hrun := runOn_succ hu hstep
      rcases hv with hv | hw
      · exact .inl ⟨_, v, hrun, hru ▸ hv⟩
      · rcases hw.rank_lt_or_eq with hlt | ⟨heq, -⟩
        · exact .inl ⟨_, v, hrun, .inr ⟨hw.pending hpu, hru ▸ hlt⟩⟩
        · exact .inr ⟨v, hrun, hw.pending hpu, heq.trans hru, hd.stays hw heq heu⟩

/-- A schedule that is fair to an enabled agent takes a pending request on. -/
theorem Drives.fair_progress (hd : Drives enabled mine) (hfair : weaklyFair enabled mine σ s₀) (hreset : ∀ m, σ m ≠ .resetInput)
    (hn : runOn σ s₀ n = some s) (hp : Pending s) (he : enabled s = true) :
    ∃ m u, runOn σ s₀ m = some u ∧ EndedOrBelow (rank s) u := by
  obtain ⟨m, hm, hmine⟩ := hfair n
  obtain ⟨k, rfl⟩ := Nat.exists_eq_add_of_le hm
  rcases hd.progress_or_stays hreset hn hp he k with hdone | ⟨u, hu, hpu, hru, heu⟩
  · exact hdone
  · obtain ⟨v, hstep, hv⟩ := hd.progress hpu heu (hmine u hu heu)
    exact ⟨_, v, runOn_succ hu hstep, hru ▸ hv⟩

theorem FairSchedule.progress (hf : FairSchedule σ s₀) (hn : runOn σ s₀ n = some s) (hp : Pending s) :
    ∃ m u, runOn σ s₀ m = some u ∧ EndedOrBelow (rank s) u := by
  rcases hp.some_agent_enabled with he | he | he
  · exact seq_drives.fair_progress hf.seq_fair hf.no_reset hn hp he
  · exact lineTx_drives.fair_progress hf.lt_fair hf.no_reset hn hp he
  · exact tick_drives.fair_progress hf.tk_fair hf.no_reset hn hp he

theorem FairSchedule.ends (hf : FairSchedule σ s₀) (r : ℕ ×ₗ ℕ) : ∀ {n : Nat} {s : State}, runOn σ s₀ n = some s → Pending s →
    rank s = r → ∃ m t, runOn σ s₀ m = some t ∧ (t.done = true ∨ t.refused = true) := by
  induction r using WellFoundedLT.induction with
  | ind r ih =>
    rintro n s hn hp rfl
    obtain ⟨m, u, hu, hended | ⟨hpu, hlt⟩⟩ := hf.progress hn hp
    · exact ⟨m, u, hu, hended⟩
    · exact ih (rank u) hlt hu hpu rfl

end

/-- Settles O54, by well-founded induction on the rank of the pending request. -/
theorem fairScheduleReachesDone : Obligations.FairScheduleReachesDone := by
  unfold Obligations.FairScheduleReachesDone
  intro σ s hinv hbusy hfair
  cases hr : s.refused with
  | true => exact ⟨0, s, rfl, .inr hr⟩
  | false => exact hfair.ends (rank s) (n := 0) rfl (hinv.pending hbusy hr) rfl

end Sys2Proof.Machine

/-! The invariant at every step (10_state.md R21; 43_sequencer.md R142). Two moves of S carry the argument: ending the request
(`Running.after_finish`) and going on to another state of the exchange (`Running.after_goTo`). Each step of S is one of these two,
with the fields it writes besides. -/

namespace Sys2Proof.Machine

/-! ### Ending a request, refusing it and going on -/

/-- A state of the block in which a request runs and is not refused: what S finds wherever it is enabled. -/
structure Running (s : State) : Prop extends Inv s where
  busy : s.busy = true
  not_refused : s.refused = false

/-- A running request can be ended in success, or with a code (43_sequencer.md R126). -/
theorem Running.after_finish {s : State} (h : Running s) {ok : Bool} {e : ErrCode} (hcode : ok = true ↔ e = .noError) :
    Inv (finish ok e s) :=
  { h with
    busy_done := by simp
    idle_busy := by simp
    refused_at := by simp [h.not_refused]
    success_err := hcode.1
    busy_clear := by simp
    failed_code := fun _ _ hf he => by simp [hcode.2 he] at hf
    exchange_open := by simp [inExchange]
    exchange_op := by simp [inExchange]
    query_tail := by simp [inQueryTail]
    frame_latched := by simp [inExchange]
    timer_clear := by simp
    txto_after := by simp
    resp_success := fun hl => by
      obtain ⟨-, -, hnone⟩ := h.busy_clear h.busy
      exact absurd hnone hl }

theorem Running.after_failure {s : State} (h : Running s) {e : ErrCode} (he : e ≠ .noError) : Inv (finish false e s) :=
  h.after_finish (by simp [he])

theorem Running.after_success {s : State} (h : Running s) : Inv (finish true .noError s) :=
  h.after_finish (by simp)

theorem Inv.after_refuse {s : State} (h : Inv s) (hs : s.state = .dispatch) : Inv (refuse s) :=
  { h with refused_at := fun _ => hs }

/-- A running request can go to a state `q` of an exchange that fits it. -/
theorem Running.after_goTo {s : State} (h : Running s) {q : SeqState} (hq : q ≠ .idle) (hopen : s.init = true)
    (hop : (s.opL = 0x3#4 ∧ (kindOf s.argL).isSome = true) ∨ (s.opL = 0x4#4 ∧ s.argL = 0x00#8))
    (hquery : inQueryTail q = true → s.opL = 0x4#4)
    (hframe : q ≠ .encode → latchedFrame s = some s.frame)
    (htimer : beforeTimer q = true → s.tmr = 0x00000000#32)
    (htxto : s.txto = true → inQueryTail q = true) : Inv (goTo q s) :=
  { h with
    idle_busy := by simp [hq, h.busy]
    refused_at := by simp [h.not_refused]
    exchange_open := fun _ => hopen
    exchange_op := fun _ => hop
    query_tail := hquery
    frame_latched := fun _ => hframe
    timer_clear := htimer
    txto_after := fun ht => .inr (htxto ht) }

/-- TXTO is clear from the acceptance of a request to the end of its drain wait. -/
theorem Inv.txto_clear {s : State} (h : Inv s) {p : SeqState} (hs : s.state = p) (hq : p ≠ .idle) (ht : inQueryTail p = false) :
    s.txto = false := by
  subst hs
  rw [Bool.eq_false_iff]
  intro hx
  rcases h.txto_after hx with hi | hi
  · exact hq hi
  · simp [ht] at hi

/-- From one state of a query's tail to another (43_sequencer.md R137 to R141). -/
theorem Running.after_goTo_queryTail {s : State} (h : Running s) {p q : SeqState} (hs : s.state = p)
    (hp : inQueryTail p = true) (hq : inQueryTail q = true) : Inv (goTo q s) := by
  subst hs
  have hx : inExchange s.state = true := by revert hp; cases s.state <;> simp [inQueryTail, inExchange]
  have hne : s.state ≠ .encode := fun he => by simp [he, inQueryTail] at hp
  have htimer : beforeTimer q = false := by revert hq; cases q <;> simp [inQueryTail, beforeTimer]
  exact h.after_goTo (by rintro rfl; cases hq) (h.exchange_open hx) (h.exchange_op hx) (fun _ => h.query_tail hp)
    (fun _ => h.frame_latched hx hne) (by simp [htimer]) (fun _ => hq)

/-! ### The steps of S -/


theorem stepDispatch_keeps_inv {s t : State} (h : Running s) (hs : s.state = .dispatch)
    (hst : stepDispatch s = .next t) : Inv t := by
  rcases stepDispatch_next hst with ⟨i, hi, he⟩ | ⟨e, -, rfl⟩
  · obtain ⟨hop, -, -, hpay⟩ := decodeOpArg_ok hi
    rcases exec_next he with ⟨-, -, -, rfl⟩ | ⟨-, -, rfl⟩ | ⟨-, e, hne, rfl⟩ | ⟨hx, hopen, rfl⟩ | ⟨_, -, -, rfl⟩ | ⟨p, hp, -⟩
    · have hrun : Running (openSession s) :=
        { h with
          closed_empty := fun _ => ⟨rfl, rfl⟩
          exchange_open := fun _ => rfl
          txf_bound := Nat.zero_le _
          rxf_bound := Nat.zero_le _ }
      exact hrun.after_success
    · have hrun : Running (closeSession s) :=
        { h with
          closed_empty := fun _ => ⟨rfl, rfl⟩
          exchange_open := fun hx => by simp [closeSession, hs, inExchange] at hx
          txf_bound := Nat.zero_le _
          rxf_bound := Nat.zero_le _ }
      exact hrun.after_success
    · exact h.after_failure hne
    · have htxto := h.txto_clear hs (by simp) rfl
      exact h.after_goTo (by simp) hopen (hop hx) (by simp [inQueryTail]) (absurd rfl)
        (fun _ => h.timer_clear (by rw [hs]; rfl)) (by simp [htxto])
    · exact h.after_refuse hs
    · simp [hpay] at hp
  · exact h.after_refuse hs

/-- The frame instruction that ENCODE fetches puts the latched request's frame into FRAME (43_sequencer.md R134). -/
theorem latchedFrame_of_fetchFrame {s : State} {i : Instr} (h : fetchFrame s = some i) :
    ∃ p, payloadOf i = some p ∧ latchedFrame s = some (assemble p) := by
  by_cases ho : s.opL = 0x3#4
  · simp only [fetchFrame, ho, if_true, Option.map_eq_some_iff] at h
    obtain ⟨k, hk, rfl⟩ := h
    exact ⟨_, payloadOf_commandFrameOf k, by simp [latchedFrame, ho, hk, encodeCommand]⟩
  · simp only [fetchFrame, ho, if_false, Option.some.injEq] at h
    subst h
    exact ⟨_, rfl, by simp [latchedFrame, ho, encodeQuery]⟩

/-- ENCODE goes on to WRITE with the frame of the latched request (43_sequencer.md R134). -/
theorem Running.after_encode {s : State} (h : Running s) (hs : s.state = .encode) {g : CrcGen} (hg : g.idx ≤ 6 ∧ g.bit ≤ 8)
    {f : Vector Byte 10} (hf : latchedFrame s = some f) : Inv { s with crc := g, frame := f, state := .write } := by
  have hx : inExchange s.state = true := by rw [hs]; rfl
  have htxto := h.txto_clear hs (by simp) rfl
  have hrun : Running { s with crc := g, frame := f } :=
    { h with
      frame_latched := fun _ _ => hf
      crc_range := hg }
  exact hrun.after_goTo (q := .write) (by simp) (h.exchange_open hx) (h.exchange_op hx) (by simp [inQueryTail])
    (fun _ => hf) (fun _ => h.timer_clear (by rw [hs]; rfl)) (by simp [htxto])

theorem stepEncode_keeps_inv {s t : State} (h : Running s) (hs : s.state = .encode) (hst : stepEncode s = .next t) : Inv t := by
  obtain ⟨i, hi, he⟩ := stepEncode_next hst
  obtain ⟨p, hp, hf⟩ := latchedFrame_of_fetchFrame hi
  rw [exec_payload hp] at he
  cases he
  exact h.after_encode hs (crcSerial_range p.toList) hf

/-- With room for a whole frame, any part of FRAME can be queued on an open session. -/
theorem Running.after_queueFrame {s : State} (h : Running s) (hopen : s.init = true) (hroom : s.txf.length + frameLen ≤ s.params.txDepth) (n : Nat) :
    Running (queueFrame n s) :=
  { h with
    closed_empty := fun hc => by simp [queueFrame, hopen] at hc
    txf_bound := by
      have : (s.frame.toList.take n).length ≤ frameLen := by simp [frameLen]
      simp only [queueFrame, List.length_append]
      omega }

theorem stepWrite_keeps_inv {s t : State} (h : Running s) (hs : s.state = .write)
    (hroom : s.txf.length + frameLen ≤ s.params.txDepth) (hst : stepWrite s = .next t) : Inv t := by
  have hx : inExchange s.state = true := by rw [hs]; rfl
  have htxto := h.txto_clear hs (by simp) rfl
  obtain ⟨-, ⟨-, rfl⟩ | ⟨hopen, -, rfl⟩ | ⟨hopen, -, n, e, -, hne, rfl⟩⟩ := stepWrite_next hst
  · exact h.after_failure (by simp)
  · have hinv : Inv (goTo .drain (queueFrame 10 s)) :=
      (h.after_queueFrame hopen hroom 10).after_goTo (by simp) hopen (h.exchange_op hx) (by simp [inQueryTail])
        (fun _ => h.frame_latched hx (by simp [hs])) (by simp [beforeTimer]) (by simp [queueFrame, htxto])
    exact { hinv with timer_clear := by simp [beforeTimer] }
  · exact (h.after_queueFrame hopen hroom n).after_failure hne

theorem stepDrain_keeps_inv {s t : State} (h : Running s) (hs : s.state = .drain)
    (hst : stepDrain s = .next t) : Inv t := by
  have hx : inExchange s.state = true := by rw [hs]; rfl
  have htxto := h.txto_clear hs (by simp) rfl
  rcases stepDrain_next hst with ⟨-, rfl⟩ | ⟨hopen, u, hu, ⟨-, rfl⟩ | ⟨hop, rfl⟩⟩
  · exact h.after_failure (by simp)
  · rcases hu with ⟨rfl, -⟩ | ⟨rfl, -⟩
    · exact h.after_success
    · exact { h.after_success with txto_after := fun _ => .inl rfl }
  · have hinv : Inv (goTo .flush s) :=
      h.after_goTo (by simp) hopen (h.exchange_op hx)
        (fun _ => (h.exchange_op hx).elim (fun h3 => absurd h3.1 hop) And.left)
        (fun _ => h.frame_latched hx (by simp [hs])) (by simp [beforeTimer]) (by simp [htxto])
    rcases hu with ⟨rfl, -⟩ | ⟨rfl, -⟩
    · exact hinv
    · exact { hinv with txto_after := fun _ => .inr rfl }

theorem stepFlush_keeps_inv {s t : State} (h : Running s) (hs : s.state = .flush)
    (hst : stepFlush s = .next t) : Inv t := by
  obtain ⟨-, ⟨-, rfl⟩ | ⟨hopen, rfl⟩⟩ := stepFlush_next hst
  · exact h.after_failure (by simp)
  · exact { h.after_goTo_queryTail hs rfl (q := .settle) rfl with
      closed_empty := fun hc => by simp [hopen] at hc
      timer_clear := by simp [beforeTimer]
      rxf_bound := Nat.zero_le _ }

theorem stepSettle_keeps_inv {s t : State} (h : Running s) (hs : s.state = .settle)
    (hst : stepSettle s = .next t) : Inv t := by
  obtain ⟨-, rfl⟩ := stepSettle_next hst
  exact { h.after_goTo_queryTail hs rfl (q := .read) rfl with timer_clear := by simp [beforeTimer] }

/-- READ and FALLBACK end a query with the bytes they stored: RESP_BUF held none, so exactly these are listed. -/
theorem Running.after_capture {s : State} (h : Running s) (hop : s.opL = 0x4#4)
    (hopen : s.init = true) {m : Memory} (hm : memWriteFrom 0 (s.rxf.take 256) s.respBuf = some m) :
    Inv (finish true .noError { dropReceived 256 s with
      respBuf := m, respLen := BitVec.ofNat 9 (s.rxf.take 256).length }) := by
  have hlen : (BitVec.ofNat 9 (s.rxf.take 256).length).toNat = (s.rxf.take 256).length :=
    Nat.mod_eq_of_lt (lt_of_le_of_lt (List.length_take_le ..) (by decide))
  have hempty : s.respBuf.map Prod.fst = List.range 0 := by
    obtain ⟨-, -, hnone⟩ := h.busy_clear h.busy
    rw [h.resp_cells, hnone]
    rfl
  exact { h.after_success with
    busy_clear := by simp
    closed_empty := fun hc => by simp [dropReceived, hopen] at hc
    rxf_bound := le_trans (by simp [dropReceived]) h.rxf_bound
    resp_bound := by
      rw [finish_respLen, hlen]
      simp [respCap]
    resp_cells := by
      rw [finish_respBuf, finish_respLen, hlen, memWriteFrom_keys hm hempty, Nat.zero_add]
    resp_success := fun _ => ⟨rfl, rfl, hop⟩ }

theorem stepRead_keeps_inv {s t : State} (h : Running s) (hs : s.state = .read)
    (hst : stepRead s = .next t) : Inv t := by
  rcases stepRead_next hst with ⟨-, rfl⟩ | ⟨-, -, rfl⟩ | ⟨hopen, -, -, m, hm, rfl⟩
  · exact h.after_failure (by simp)
  · exact h.after_goTo_queryTail hs rfl rfl
  · exact h.after_capture (h.query_tail (by rw [hs]; rfl)) hopen hm

theorem stepCheck_keeps_inv {s t : State} (h : Running s) (hs : s.state = .check)
    (hst : stepCheck s = .next t) : Inv t := by
  rcases stepCheck_next hst with ⟨-, rfl⟩ | ⟨-, -, rfl⟩ | ⟨-, -, rfl⟩
  · exact h.after_failure (by simp)
  · exact h.after_goTo_queryTail hs rfl rfl
  · exact h.after_failure (by simp)

theorem stepFallback_keeps_inv {s t : State} (h : Running s) (hs : s.state = .fallback)
    (hst : stepFallback s = .next t) : Inv t := by
  rcases stepFallback_next hst with ⟨-, rfl⟩ | ⟨-, -, rfl⟩ | ⟨hopen, -, -, m, hm, rfl⟩
  · exact h.after_failure (by simp)
  · exact h.after_failure (by simp)
  · exact h.after_capture (h.query_tail (by rw [hs]; rfl)) hopen hm

/-- S steps only in a running request (43_sequencer.md R142). -/
theorem Inv.running {s : State} (h : Inv s) (he : seqEnabled s = true) : Running s := by
  have hidle : s.state ≠ .idle := fun hs => by simp [seqEnabled, hs] at he
  exact { h with
    busy := by simpa using mt h.idle_busy.2 hidle
    not_refused := by
      simp only [seqEnabled, Bool.and_eq_true, Bool.not_eq_true'] at he
      exact he.1 }

/-- In WRITE, S waits for the room of a whole frame (43_sequencer.md R135). -/
theorem seqEnabled_write {s : State} (hs : s.state = .write) (he : seqEnabled s = true) :
    s.txf.length + frameLen ≤ s.params.txDepth := by
  simp only [seqEnabled, hs, Bool.and_eq_true, decide_eq_true_eq] at he
  exact he.2

theorem seqBody_keeps_inv {s t : State} (h : Inv s) (he : seqEnabled s = true) (hst : seqBody s = .next t) : Inv t := by
  have hrun := h.running he
  unfold seqBody at hst
  cases hs : s.state <;> simp only [hs] at hst
  case idle => simp [seqEnabled, hs] at he
  case dispatch => exact stepDispatch_keeps_inv hrun hs hst
  case encode => exact stepEncode_keeps_inv hrun hs hst
  case write => exact stepWrite_keeps_inv hrun hs (seqEnabled_write hs he) hst
  case drain => exact stepDrain_keeps_inv hrun hs hst
  case flush => exact stepFlush_keeps_inv hrun hs hst
  case settle => exact stepSettle_keeps_inv hrun hs hst
  case read => exact stepRead_keeps_inv hrun hs hst
  case check => exact stepCheck_keeps_inv hrun hs hst
  case fallback => exact stepFallback_keeps_inv hrun hs hst

theorem seqStep_keeps_inv {s t : State} (h : Inv s) (hst : seqStep s = .next t) : Inv t := by
  rcases seqStep_next hst with ⟨-, rfl⟩ | ⟨he, hbody⟩
  · exact h
  · exact seqBody_keeps_inv h he hbody

/-! ### The other agents -/

theorem lineTxStep_keeps_inv {s : State} (h : Inv s) : Inv (lineTxStep s) := by
  rcases lineTxStep_cases s with ⟨hopen, b, rest, hx, he⟩ | ⟨-, he⟩ <;> rw [he]
  · have hbound := h.txf_bound
    rw [hx, List.length_cons] at hbound
    exact { h with
      closed_empty := fun hc => by simp [hopen] at hc
      txf_bound := Nat.le_of_succ_le hbound }
  · exact h

theorem receiveStep_keeps_inv {b : Byte} {s t : State} (h : Inv s) (hst : receiveStep b s = .next t) : Inv t := by
  rcases receiveStep_next hst with rfl | ⟨hopen, -, hroom, rfl⟩
  · exact h
  · exact { h with
      closed_empty := fun hc => by simp [hopen] at hc
      rxf_bound := by simpa using hroom }

theorem tickStep_keeps_inv {s : State} (h : Inv s) : Inv (tickStep s) := by
  rcases tickStep_cases s with ⟨-, he⟩ | ⟨hne, he⟩ <;> rw [he]
  · exact h
  · exact { h with timer_clear := fun hs => absurd (h.timer_clear hs) hne }

/-- An idle block can accept any word (43_sequencer.md R125). -/
theorem Inv.after_accept {s : State} (h : Inv s) (hb : s.busy = false) (v : Word) : Inv (accept v s) := by
  have hs : s.state = .idle := h.idle_busy.2 hb
  exact { h with
    busy_done := by simp
    idle_busy := by simp
    refused_at := by simp
    success_err := by simp
    busy_clear := by simp
    failed_code := by simp
    exchange_open := by simp [inExchange]
    exchange_op := by simp [inExchange]
    query_tail := by simp [inQueryTail]
    frame_latched := by simp [inExchange]
    timer_clear := fun _ => h.timer_clear (by rw [hs]; rfl)
    txto_after := by simp
    resp_bound := by simp
    resp_cells := by simp
    resp_success := by simp }

theorem hostWrite_keeps_inv {s : State} (h : Inv s) (n : RegNum) (v : Word) : Inv (hostWrite n v s) := by
  rcases hostWrite_cases n v s with ⟨-, hb, he⟩ | ⟨-, -, he⟩ | ⟨_, _, _, _, _, he⟩ <;> rw [he]
  · exact h.after_accept hb v
  · exact { h with }
  · exact { h with }

theorem hostProgramStep_keeps_inv {s : State} (h : Inv s) : Inv (hostProgramStep s) := by
  obtain ⟨u, pc, v, hu, he⟩ := hostProgramStep_cases s
  have hinv : Inv u := by
    rcases hu with rfl | ⟨n, w, -, rfl⟩
    · exact h
    · exact hostWrite_keeps_inv h n w
  rw [he]
  exact { hinv with }

/-- The reset values meet the invariant under any legal parameters (10_state.md R36). -/
theorem blockReset_inv {s : State} (hl : s.params.legal = true) : Inv (blockReset s) := by
  constructor <;> simp [State.reset, hl, inExchange, inQueryTail, respCap]

/-- Settles O41: right after reset the parameters are legal. -/
theorem resetMeetsTheInvariant : Obligations.ResetMeetsTheInvariant :=
  blockReset_inv (s := State.reset) (paramsOf_legal ..)

/-- Settles O42, by the agent that steps; for S, by its state. -/
theorem everyStepKeepsTheInvariant : Obligations.EveryStepKeepsTheInvariant := by
  unfold Obligations.EveryStepKeepsTheInvariant
  intro s t h hst
  have hadv : Inv (advance s) := { h with }
  rcases step_next hst with ⟨d, -, hs⟩ | ⟨-, rfl⟩ | ⟨b, -, hs⟩ | ⟨-, rfl⟩ | ⟨n, v, -, rfl⟩ | ⟨n, -, rfl⟩ | ⟨-, rfl⟩ | ⟨-, rfl⟩
  · exact seqStep_keeps_inv (s := withDraw d (advance s)) { hadv with } hs
  · exact lineTxStep_keeps_inv hadv
  · exact receiveStep_keeps_inv hadv hs
  · exact tickStep_keeps_inv hadv
  · exact hostWrite_keeps_inv hadv n v
  · exact { hadv with }
  · exact hostProgramStep_keeps_inv hadv
  · exact blockReset_inv hadv.legal

end Sys2Proof.Machine

/-! The host registers (10_state.md R18 to R23; 20_memory.md R47): what a read returns, what a write stores, and, for the settings,
the session and the sticky marks, which steps change them. -/

namespace Sys2Proof.Machine

/-! ### STATUS (10_state.md R19) -/

theorem bitAt_getLsbD_of_ne {n k : Nat} (h : k ≠ n) (b : Bool) : (bitAt n b).getLsbD k = false := by
  have hk : ¬ k - n = 0 ∨ k < n := by omega
  rcases hk with hk | hk <;> simp [bitAt, hk]

/-- A field of `w` bits at position `p` leaves the bits above it 0. -/
theorem field_getLsbD_above {w p k : Nat} (x : BitVec w) (h : p + w ≤ k) : (x.setWidth 32 <<< p).getLsbD k = false := by
  simp [BitVec.getLsbD_of_ge x (k - p) (by omega)]

theorem statusWord_err (s : State) : (statusWord s).extractLsb' 4 3 = errNumber s.err := by
  ext i hi
  interval_cases i <;> simp [statusWord, bitAt]

theorem statusWord_state (s : State) : (statusWord s).extractLsb' 8 4 = seqCode s.state := by
  ext i hi
  interval_cases i <;> simp [statusWord, bitAt]

theorem statusWord_reserved (s : State) : (statusWord s).extractLsb' 14 18 = 0#18 := by
  ext i hi
  have hbit : ∀ {n : Nat} (b : Bool), n < 14 → (bitAt n b).getLsbD (14 + i) = false :=
    fun b hn => bitAt_getLsbD_of_ne (by omega) b
  simp [statusWord, hbit, field_getLsbD_above (errNumber s.err) (show 4 + 3 ≤ 14 + i by omega),
    field_getLsbD_above (seqCode s.state) (show 8 + 4 ≤ 14 + i by omega), -BitVec.getLsbD_shiftLeft]

/-- Settles O10, field by field. -/
theorem statusShowsItsFields : Obligations.StatusShowsItsFields := by
  unfold Obligations.StatusShowsItsFields
  intro s
  have hread : hostRead 0x001#12 s = statusWord s := rfl
  rw [hread]
  refine ⟨?_, ?_, statusWord_done s, statusWord_success s, statusWord_err s, ?_, statusWord_state s, ?_, ?_,
    statusWord_reserved s, rfl, rfl⟩ <;> simp [statusWord, bitAt]

/-! ### The register numbers (20_memory.md R47) -/

theorem hostRead_resp {n : RegNum} (h : 0x100 ≤ n.toNat ∧ n.toNat < 0x200) (s : State) :
    hostRead n s = respWord (n.toNat - 0x100) s := by
  have hne : ∀ r : RegNum, r.toNat < 0x100 → n ≠ r := by rintro r hr rfl; omega
  simp [hostRead, h, hne]

theorem hostRead_unassigned {n : RegNum} (h : (0x008 ≤ n.toNat ∧ n.toNat < 0x100) ∨ 0x200 ≤ n.toNat) (s : State) :
    hostRead n s = 0x00000000#32 := by
  have hne : ∀ r : RegNum, r.toNat < 0x008 → n ≠ r := by rintro r hr rfl; omega
  have hresp : ¬(0x100 ≤ n.toNat ∧ n.toNat < 0x200) := by omega
  simp [hostRead, hresp, hne]

theorem hostWrite_no_effect {n : RegNum} (h0 : n ≠ 0x000#12) (h : ¬(0x003 ≤ n.toNat ∧ n.toNat ≤ 0x007)) (v : Word) (s : State) :
    hostWrite n v s = s := by
  have hne : ∀ r : RegNum, 0x003 ≤ r.toNat → r.toNat ≤ 0x007 → n ≠ r := by rintro r hr hr' rfl; omega
  simp [hostWrite, h0, hne]

theorem hostRead_cmd_toNat (s : State) : (hostRead 0x000#12 s).toNat = 256 * s.opL.toNat + s.argL.toNat := by
  have hop := s.opL.isLt
  have harg := s.argL.isLt
  have hread : hostRead 0x000#12 s = (s.opL.setWidth 32 <<< 8) ||| s.argL.setWidth 32 := rfl
  have hhigh : (s.opL.setWidth 32 <<< 8).toNat = s.opL.toNat <<< 8 := by
    simp only [BitVec.toNat_shiftLeft, BitVec.toNat_setWidth, Nat.shiftLeft_eq]
    omega
  rw [hread, BitVec.toNat_or, hhigh, BitVec.toNat_setWidth_of_le (by decide), ← Nat.shiftLeft_add_eq_or_of_lt harg, Nat.shiftLeft_eq,
    Nat.mul_comm]

/-- The defined bits of a written word, with zeros above. -/
theorem setWidth_low_bits {w : Nat} (hw : w ≤ 32) (v : Word) :
    (v.setWidth w).setWidth 32 = v &&& BitVec.ofNat 32 (2 ^ w - 1) := by
  have hle : 2 ^ w ≤ 2 ^ 32 := Nat.pow_le_pow_right (by decide) hw
  have hpos : 0 < 2 ^ w := Nat.two_pow_pos w
  apply BitVec.eq_of_toNat_eq
  rw [BitVec.toNat_and, BitVec.toNat_ofNat, Nat.mod_eq_of_lt (show 2 ^ w - 1 < 2 ^ 32 by omega), Nat.and_two_pow_sub_one_eq_mod,
    BitVec.toNat_setWidth_of_le hw, BitVec.toNat_setWidth]

/-! ### The response registers (10_state.md R30) -/

/-- A listed index reads a byte. -/
theorem cellRead_of_mem_keys {m : Memory} {i : Nat} (h : i ∈ m.map Prod.fst) : ∃ b, cellRead m i = some b := by
  induction m with
  | nil => simp at h
  | cons c m ih =>
    obtain ⟨j, b⟩ := c
    by_cases hj : j = i
    · exact ⟨b, by simp [cellRead, hj]⟩
    · obtain ⟨x, hx⟩ := ih (by simpa [Ne.symm hj] using h)
      exact ⟨x, by simp [cellRead, hj, hx]⟩

/-- Settles O12: the indices below RESP_LEN are the listed ones. -/
theorem responseBytesAreReadable : Obligations.ResponseBytesAreReadable := by
  unfold Obligations.ResponseBytesAreReadable
  intro s i h hi
  obtain ⟨b, hb⟩ := cellRead_of_mem_keys (m := s.respBuf) (h.resp_cells ▸ List.mem_range.2 hi)
  have hbound : i < 256 := lt_of_lt_of_le hi h.resp_bound
  have hn : (BitVec.ofNat 12 (0x100 + i)).toNat = 0x100 + i := Nat.mod_eq_of_lt (by omega)
  refine ⟨b, hb, ?_⟩
  rw [hostRead_resp (by omega), hn, Nat.add_sub_cancel_left, respWord, memRead, if_pos hi, hb]
  exact BitVec.toNat_setWidth_of_le (show 8 ≤ 32 by decide)

/-! ### What only DISPATCH, the host and the reset input change -/

/-- The host's settings: the CFG registers (10_state.md R23). -/
structure Settings where
  cfgPort : Byte
  cfgTxPin : Byte
  cfgRxPin : Byte
  cfgBaud : Word
  cfgSettleMs : BitVec 16

/-- The session: STATUS.INIT and the session registers (10_state.md R27). -/
structure Session where
  init : Bool
  portS : Byte
  txPinS : Byte
  rxPinS : Byte
  baudS : Word

/-- What of the state no exchange touches: the settings, the session and the sticky marks of STATUS (10_state.md R20). -/
structure Standing where
  settings : Settings
  session : Session
  fault : Bool
  refused : Bool

def settingsOf (s : State) : Settings where
  cfgPort := s.cfgPort
  cfgTxPin := s.cfgTxPin
  cfgRxPin := s.cfgRxPin
  cfgBaud := s.cfgBaud
  cfgSettleMs := s.cfgSettleMs

def sessionOf (s : State) : Session where
  init := s.init
  portS := s.portS
  txPinS := s.txPinS
  rxPinS := s.rxPinS
  baudS := s.baudS

def standingOf (s : State) : Standing where
  settings := settingsOf s
  session := sessionOf s
  fault := s.fault
  refused := s.refused

@[simp] theorem standingOf_eq_iff {s t : State} : standingOf t = standingOf s ↔
    settingsOf t = settingsOf s ∧ sessionOf t = sessionOf s ∧ t.fault = s.fault ∧ t.refused = s.refused := by
  simp [standingOf]

@[simp] theorem sessionOf_eq_iff {s t : State} : sessionOf t = sessionOf s ↔
    t.init = s.init ∧ t.portS = s.portS ∧ t.txPinS = s.txPinS ∧ t.rxPinS = s.rxPinS ∧ t.baudS = s.baudS := by
  simp [sessionOf]

/-- What S can do to the standing state in DISPATCH: INIT opens the session, DEINIT closes it, a refusal sets REFUSED; no other
answer touches it (43_sequencer.md R128 to R133). -/
theorem stepDispatch_standing {s t : State} (h : stepDispatch s = .next t) :
    (s.opL = 0x1#4 ∧ s.init = false ∧ t = finish true .noError (openSession s)) ∨
    (s.opL = 0x2#4 ∧ s.init = true ∧ t = finish true .noError (closeSession s)) ∨
    t = refuse s ∨ standingOf t = standingOf s := by
  rcases stepDispatch_next h with ⟨i, hi, he⟩ | ⟨e, -, rfl⟩
  · obtain ⟨-, hinit, hdeinit, hpay⟩ := decodeOpArg_ok hi
    rcases exec_next he with ⟨rfl, hc, -, rfl⟩ | ⟨rfl, ho, rfl⟩ | ⟨-, e, -, rfl⟩ | ⟨-, -, rfl⟩ | ⟨_, -, -, rfl⟩ | ⟨p, hp, -⟩
    · exact .inl ⟨hinit rfl, hc, rfl⟩
    · exact .inr (.inl ⟨hdeinit rfl, ho, rfl⟩)
    · exact .inr (.inr (.inr rfl))
    · exact .inr (.inr (.inr rfl))
    · exact .inr (.inr (.inl rfl))
    · simp [hpay] at hp
  · exact .inr (.inr (.inl rfl))

/-- Outside DISPATCH S leaves the standing state alone. -/
theorem seqBody_standing {s t : State} (hs : s.state ≠ .dispatch) (h : seqBody s = .next t) : standingOf t = standingOf s := by
  unfold seqBody at h
  cases hq : s.state <;> simp only [hq] at h
  case idle => cases h; rfl
  case dispatch => exact absurd hq hs
  case encode =>
    obtain ⟨i, hi, he⟩ := stepEncode_next h
    obtain ⟨p, hp, -⟩ := latchedFrame_of_fetchFrame hi
    rw [exec_payload hp] at he
    cases he
    rfl
  case write => obtain ⟨-, ⟨-, rfl⟩ | ⟨-, -, rfl⟩ | ⟨-, -, _, _, -, -, rfl⟩⟩ := stepWrite_next h <;> rfl
  case drain =>
    rcases stepDrain_next h with ⟨-, rfl⟩ | ⟨-, u, ⟨rfl, -⟩ | ⟨rfl, -⟩, ⟨-, rfl⟩ | ⟨-, rfl⟩⟩ <;> rfl
  case flush => obtain ⟨-, ⟨-, rfl⟩ | ⟨-, rfl⟩⟩ := stepFlush_next h <;> rfl
  case settle => obtain ⟨-, rfl⟩ := stepSettle_next h; rfl
  case read => rcases stepRead_next h with ⟨-, rfl⟩ | ⟨-, -, rfl⟩ | ⟨-, -, -, _, -, rfl⟩ <;> rfl
  case check => rcases stepCheck_next h with ⟨-, rfl⟩ | ⟨-, -, rfl⟩ | ⟨-, -, rfl⟩ <;> rfl
  case fallback => rcases stepFallback_next h with ⟨-, rfl⟩ | ⟨-, -, rfl⟩ | ⟨-, -, -, _, -, rfl⟩ <;> rfl

theorem lineTxStep_standing (s : State) : standingOf (lineTxStep s) = standingOf s := by
  rcases lineTxStep_cases s with ⟨-, _, _, -, he⟩ | ⟨-, he⟩
  · rw [he]
    rfl
  · exact congrArg standingOf he

theorem receiveStep_standing {b : Byte} {s t : State} (h : receiveStep b s = .next t) : standingOf t = standingOf s := by
  rcases receiveStep_next h with rfl | ⟨-, -, -, rfl⟩ <;> rfl

theorem tickStep_standing (s : State) : standingOf (tickStep s) = standingOf s := by
  rcases tickStep_cases s with ⟨-, he⟩ | ⟨-, he⟩
  · exact congrArg standingOf he
  · rw [he]
    rfl

theorem hostWrite_session (n : RegNum) (v : Word) (s : State) : sessionOf (hostWrite n v s) = sessionOf s := by
  rcases hostWrite_cases n v s with ⟨-, -, he⟩ | ⟨-, -, he⟩ | ⟨_, _, _, _, _, he⟩ <;> rw [he] <;> rfl

/-- Short of a reset, the standing state changes only by S in DISPATCH or by a host write. -/
theorem step_standing {s t : State} (h : step s = .next t) (hr : nextAgentStep s ≠ .resetInput) :
    standingOf t = standingOf s ∨
    (∃ d, nextAgentStep s = .seq d ∧ s.state = .dispatch ∧ stepDispatch (atSeq d s) = .next t) ∨
    (∃ n v, hostWrites n v s ∧ standingOf t = standingOf (hostWrite n v (advance s))) := by
  rcases step_next h with ⟨d, hn, hst⟩ | ⟨-, rfl⟩ | ⟨b, -, hst⟩ | ⟨-, rfl⟩ | ⟨n, v, hn, rfl⟩ | ⟨n, -, rfl⟩ | ⟨hn, rfl⟩ | ⟨hn, -⟩
  · rcases seqStep_next (s := atSeq d s) hst with ⟨-, rfl⟩ | ⟨-, hbody⟩
    · exact .inl rfl
    · by_cases hs : s.state = .dispatch
      · exact .inr (.inl ⟨d, hn, hs, by simpa only [seqBody, atSeq_state, hs] using hbody⟩)
      · exact .inl (seqBody_standing (s := atSeq d s) hs hbody)
  · exact .inl (lineTxStep_standing (advance s))
  · exact .inl (receiveStep_standing (s := advance s) hst)
  · exact .inl (tickStep_standing (advance s))
  · exact .inr (.inr ⟨n, v, .inl hn, rfl⟩)
  · exact .inl rfl
  · obtain ⟨u, pc, v, rfl | ⟨n, w, hp, rfl⟩, he⟩ := hostProgramStep_cases (advance s) <;> rw [he]
    · exact .inl rfl
    · exact .inr (.inr ⟨n, w, .inr ⟨hn, hp⟩, rfl⟩)
  · exact absurd hn hr

/-! ### The sticky marks (10_state.md R20) -/

/-- What was marked is still marked. -/
def MarksStay (s t : State) : Prop := (s.fault = true → t.fault = true) ∧ (s.refused = true → t.refused = true)

theorem marksStay_of_standing {s t : State} (h : standingOf t = standingOf s) : MarksStay s t := by
  obtain ⟨-, -, hfault, hrefused⟩ := standingOf_eq_iff.1 h
  exact ⟨hfault.trans, hrefused.trans⟩

theorem stepDispatch_marksStay {s t : State} (h : stepDispatch s = .next t) : MarksStay s t := by
  rcases stepDispatch_standing h with ⟨-, -, rfl⟩ | ⟨-, -, rfl⟩ | rfl | hk
  · exact ⟨id, id⟩
  · exact ⟨id, id⟩
  · exact ⟨id, fun _ => rfl⟩
  · exact marksStay_of_standing hk

theorem hostWrite_marksStay (n : RegNum) (v : Word) (s : State) : MarksStay s (hostWrite n v s) := by
  rcases hostWrite_cases n v s with ⟨-, -, he⟩ | ⟨-, -, he⟩ | ⟨_, _, _, _, _, he⟩ <;> rw [he]
  · exact ⟨id, id⟩
  · exact ⟨fun _ => rfl, id⟩
  · exact ⟨id, id⟩

/-- Settles O45: of what changes the standing state, a refusal and a host fault set a mark and nothing clears one. -/
theorem faultAndRefusedAreSticky : Obligations.FaultAndRefusedAreSticky := by
  unfold Obligations.FaultAndRefusedAreSticky
  intro s t h hr
  rcases step_standing h hr with hk | ⟨d, -, -, hst⟩ | ⟨n, v, -, hk⟩
  · exact marksStay_of_standing hk
  · exact stepDispatch_marksStay (s := atSeq d s) hst
  · obtain ⟨hfault, hrefused⟩ := marksStay_of_standing hk
    obtain ⟨hfault', hrefused'⟩ := hostWrite_marksStay n v (advance s)
    exact ⟨fun hs => hfault (hfault' hs), fun hs => hrefused (hrefused' hs)⟩

/-! ### The session (10_state.md R27, R34) -/

/-- Short of a reset, only INIT and DEINIT, run by S, change the session. -/
theorem step_session {s t : State} (h : step s = .next t) (hr : nextAgentStep s ≠ .resetInput) :
    sessionOf t = sessionOf s ∨
    (∃ d, nextAgentStep s = .seq d ∧ s.state = .dispatch ∧
      ((s.opL = 0x1#4 ∧ s.init = false ∧ t = finish true .noError (openSession (atSeq d s))) ∨
       (s.opL = 0x2#4 ∧ s.init = true ∧ t = finish true .noError (closeSession (atSeq d s))))) := by
  rcases step_standing h hr with hk | ⟨d, hn, hs, hst⟩ | ⟨n, v, -, hk⟩
  · exact .inl (congrArg Standing.session hk)
  · rcases stepDispatch_standing hst with hopened | hclosed | rfl | hk
    · exact .inr ⟨d, hn, hs, .inl hopened⟩
    · exact .inr ⟨d, hn, hs, .inr hclosed⟩
    · exact .inl rfl
    · exact .inl (congrArg Standing.session hk)
  · exact .inl ((congrArg Standing.session hk).trans (hostWrite_session n v (advance s)))

/-- Settles O49, by `step_session`; closing the session leaves its registers as they are. -/
theorem sessionChangesOnlyByInitDeinitReset : Obligations.SessionChangesOnlyByInitDeinitReset := by
  unfold Obligations.SessionChangesOnlyByInitDeinitReset
  intro s t h hr
  rcases step_session h hr with hk | ⟨d, hn, hs, ⟨hop, hclosed, rfl⟩ | ⟨hop, -, rfl⟩⟩
  · obtain ⟨hinit, hport, htx, hrx, hbaud⟩ := sessionOf_eq_iff.1 hk
    exact ⟨fun hne => absurd hinit hne, by simp [hport, htx, hrx, hbaud]⟩
  · exact ⟨fun _ => ⟨⟨d, hn⟩, hs, .inl ⟨hop, rfl⟩⟩, fun _ => ⟨⟨d, hn⟩, hs, hop, hclosed⟩⟩
  · exact ⟨fun _ => ⟨⟨d, hn⟩, hs, .inr ⟨hop, rfl⟩⟩, by simp [closeSession]⟩

/-! ### The settings (10_state.md R23) -/

/-- Short of a reset, only a host write changes the settings. -/
theorem step_settings {s t : State} (h : step s = .next t) (hr : nextAgentStep s ≠ .resetInput) :
    settingsOf t = settingsOf s ∨
    (∃ n v, hostWrites n v s ∧ settingsOf t = settingsOf (hostWrite n v (advance s))) := by
  rcases step_standing h hr with hk | ⟨d, -, -, hst⟩ | ⟨n, v, hw, hk⟩
  · exact .inl (congrArg Standing.settings hk)
  · rcases stepDispatch_standing hst with ⟨-, -, rfl⟩ | ⟨-, -, rfl⟩ | rfl | hk
    · exact .inl rfl
    · exact .inl rfl
    · exact .inl rfl
    · exact .inl (congrArg Standing.settings hk)
  · exact .inr ⟨n, v, hw, congrArg Standing.settings hk⟩

/-- A setting `f` that only writes to `reg` store changes by such a write, to what that write stores. -/
theorem setting_changes_by_write {α : Type} (f : Settings → α) {reg : RegNum}
    (hother : ∀ {n : RegNum}, n ≠ reg → ∀ (v : Word) (s : State), f (settingsOf (hostWrite n v s)) = f (settingsOf s))
    {s t : State} (h : step s = .next t) (hr : nextAgentStep s ≠ .resetInput) (hne : f (settingsOf t) ≠ f (settingsOf s)) :
    ∃ v, hostWrites reg v s ∧ f (settingsOf t) = f (settingsOf (hostWrite reg v (advance s))) := by
  rcases step_settings h hr with hk | ⟨n, v, hw, hk⟩
  · exact absurd (congrArg f hk) hne
  · by_cases hn : n = reg
    · subst hn
      exact ⟨v, hw, congrArg f hk⟩
    · exact absurd ((congrArg f hk).trans (hother hn v (advance s))) hne

/-- Settles O11: the register numbers one by one, then the settings by `setting_changes_by_write`. -/
theorem hostRegisterMap : Obligations.HostRegisterMap := by
  unfold Obligations.HostRegisterMap
  refine ⟨fun n v s => ?_, fun s t h hr => ?_⟩
  · have hbyte : (v.setWidth 8).setWidth 32 = v &&& 0x000000FF#32 := setWidth_low_bits (by decide) v
    have hhalf : (v.setWidth 16).setWidth 32 = v &&& 0x0000FFFF#32 := setWidth_low_bits (by decide) v
    exact ⟨hostRead_cmd_toNat s, BitVec.toNat_setWidth_of_le (show 9 ≤ 32 by decide), rfl, rfl, rfl, rfl, rfl,
      hbyte, hbyte, hbyte, rfl, hhalf, fun ⟨h0, h⟩ => hostWrite_no_effect h0 h v s, fun h => hostRead_unassigned h s⟩
  · exact ⟨setting_changes_by_write Settings.cfgPort hostWrite_cfgPort_of_ne h hr,
      setting_changes_by_write Settings.cfgTxPin hostWrite_cfgTxPin_of_ne h hr,
      setting_changes_by_write Settings.cfgRxPin hostWrite_cfgRxPin_of_ne h hr,
      setting_changes_by_write Settings.cfgBaud hostWrite_cfgBaud_of_ne h hr,
      setting_changes_by_write Settings.cfgSettleMs hostWrite_cfgSettleMs_of_ne h hr⟩

/-! ### Host reads, illegal parameters and the reset values -/

/-- Settles O13, by running the step. -/
theorem hostReadHasNoSideEffect : Obligations.HostReadHasNoSideEffect := by
  unfold Obligations.HostReadHasNoSideEffect
  intro n s hn
  simp only [step, agentStep, hn, hostReadStep]

/-- Settles O34: in each of the three states S is enabled and reads a parameter (log 7). -/
theorem illegalConfigurationIsRefused : Obligations.IllegalConfigurationIsRefused := by
  unfold Obligations.IllegalConfigurationIsRefused
  intro d s hn hr hl hs
  have hl' : (atSeq d s).params.legal = false := hl
  rw [step_seq hn]
  rcases hs with ⟨hs, hroom⟩ | hs | ⟨hs, htmr⟩
  · rw [seqStep_on (by simp [seqEnabled, hr, hs, frameLen, hroom])]
    simp only [seqBody, atSeq_state, hs, stepWrite, withLegalParams_illegal hl']
  · rw [seqStep_on (by simp [seqEnabled, hr, hs])]
    simp only [seqBody, atSeq_state, hs, stepFlush, withLegalParams_illegal hl']
  · rw [seqStep_on (by simp [seqEnabled, hr, hs, htmr])]
    simp only [seqBody, atSeq_state, hs, stepSettle, withLegalParams_illegal hl']

/-- Settles O38: RESP_LEN is 0, so no index holds a value; the others are fields of the reset state. -/
theorem resetValues : Obligations.ResetValues := by
  unfold Obligations.ResetValues
  have hnone : ∀ i : Nat, memRead i State.reset = none := fun i => if_neg (Nat.not_lt_zero i)
  exact ⟨by decide, rfl, rfl, rfl, rfl, rfl, rfl, rfl, rfl, hnone, rfl, rfl, rfl, rfl, rfl⟩

end Sys2Proof.Machine

/-! The byte stores of a block: the response buffer and the line queues (20_memory.md R46, R48). What each agent can do to them is
said once, in `step_stores`. -/

namespace Sys2Proof.Machine

/-- RESP_BUF, TXF and WIRE_TX (20_memory.md R46, R48). -/
structure Stores where
  respBuf : Memory
  txf : List Byte
  wireTx : List Byte

/-- The stores of a state. -/
def storesOf (s : State) : Stores where
  respBuf := s.respBuf
  txf := s.txf
  wireTx := s.wireTx

theorem respBuf_of_storesOf_eq {s : State} {q : Stores} (h : storesOf s = q) : s.respBuf = q.respBuf := h ▸ rfl

theorem txf_of_storesOf_eq {s : State} {q : Stores} (h : storesOf s = q) : s.txf = q.txf := h ▸ rfl

theorem wireTx_of_storesOf_eq {s : State} {q : Stores} (h : storesOf s = q) : s.wireTx = q.wireTx := h ▸ rfl

/-- What S can do to the stores: nothing, empty TXF, queue a part of FRAME in WRITE, or store response bytes. -/
def SeqMoves (s t : State) : Prop :=
  storesOf t = storesOf s ∨
  storesOf t = { storesOf s with txf := [] } ∨
  (s.state = .write ∧ ∃ n : Nat, n ≤ 10 ∧ storesOf t = { storesOf s with txf := s.txf ++ s.frame.toList.take n }) ∨
  (∃ bytes m, memWriteFrom 0 bytes s.respBuf = some m ∧ storesOf t = { storesOf s with respBuf := m })

/-! ### The states of S -/

/-- INIT and DEINIT empty TXF; no other request touches the stores (42_transport.md R109, R116). -/
theorem stepDispatch_moves {s t : State} (h : stepDispatch s = .next t) : SeqMoves s t := by
  rcases stepDispatch_next h with ⟨i, hi, he⟩ | ⟨e, -, rfl⟩
  · obtain ⟨-, -, -, hpay⟩ := decodeOpArg_ok hi
    rcases exec_next he with ⟨-, -, -, rfl⟩ | ⟨-, -, rfl⟩ | ⟨-, e, -, rfl⟩ | ⟨-, -, rfl⟩ | ⟨_, -, -, rfl⟩ | ⟨p, hp, -⟩
    · exact .inr (.inl rfl)
    · exact .inr (.inl rfl)
    · exact .inl rfl
    · exact .inl rfl
    · exact .inl rfl
    · simp [hpay] at hp
  · exact .inl rfl

theorem stepEncode_stores {s t : State} (h : stepEncode s = .next t) : storesOf t = storesOf s := by
  obtain ⟨i, hi, he⟩ := stepEncode_next h
  obtain ⟨p, hp, -⟩ := latchedFrame_of_fetchFrame hi
  rw [exec_payload hp] at he
  cases he
  rfl

/-- The draw of WRITE fixes how much of FRAME enters TXF, whatever it makes of the request (42_transport.md R111). -/
theorem stepWrite_moves {s t : State} (hs : s.state = .write) (h : stepWrite s = .next t) : SeqMoves s t := by
  obtain ⟨-, ⟨-, rfl⟩ | ⟨-, -, rfl⟩ | ⟨-, -, n, _, hn, -, rfl⟩⟩ := stepWrite_next h
  · exact .inl rfl
  · exact .inr (.inr (.inl ⟨hs, 10, le_rfl, rfl⟩))
  · exact .inr (.inr (.inl ⟨hs, n, hn, rfl⟩))

theorem stepRead_moves {s t : State} (h : stepRead s = .next t) : SeqMoves s t := by
  rcases stepRead_next h with ⟨-, rfl⟩ | ⟨-, -, rfl⟩ | ⟨-, -, -, m, hm, rfl⟩
  · exact .inl rfl
  · exact .inl rfl
  · exact .inr (.inr (.inr ⟨_, m, hm, rfl⟩))

theorem stepFallback_moves {s t : State} (h : stepFallback s = .next t) : SeqMoves s t := by
  rcases stepFallback_next h with ⟨-, rfl⟩ | ⟨-, -, rfl⟩ | ⟨-, -, -, m, hm, rfl⟩
  · exact .inl rfl
  · exact .inl rfl
  · exact .inr (.inr (.inr ⟨_, m, hm, rfl⟩))

theorem seqBody_moves {s t : State} (h : seqBody s = .next t) : SeqMoves s t := by
  unfold seqBody at h
  cases hs : s.state <;> simp only [hs] at h
  case idle => cases h; exact .inl rfl
  case dispatch => exact stepDispatch_moves h
  case encode => exact .inl (stepEncode_stores h)
  case write => exact stepWrite_moves hs h
  case drain =>
    rcases stepDrain_next h with ⟨-, rfl⟩ | ⟨-, u, ⟨rfl, -⟩ | ⟨rfl, -⟩, ⟨-, rfl⟩ | ⟨-, rfl⟩⟩ <;> exact .inl rfl
  case flush => obtain ⟨-, ⟨-, rfl⟩ | ⟨-, rfl⟩⟩ := stepFlush_next h <;> exact .inl rfl
  case settle => obtain ⟨-, rfl⟩ := stepSettle_next h; exact .inl rfl
  case read => exact stepRead_moves h
  case check => rcases stepCheck_next h with ⟨-, rfl⟩ | ⟨-, -, rfl⟩ | ⟨-, -, rfl⟩ <;> exact .inl rfl
  case fallback => exact stepFallback_moves h

theorem seqStep_moves {s t : State} (h : seqStep s = .next t) : SeqMoves s t := by
  rcases seqStep_next h with ⟨-, rfl⟩ | ⟨-, hbody⟩
  · exact .inl rfl
  · exact seqBody_moves hbody

/-! ### The other agents -/

theorem receiveStep_stores {b : Byte} {s t : State} (h : receiveStep b s = .next t) : storesOf t = storesOf s := by
  rcases receiveStep_next h with rfl | ⟨-, -, -, rfl⟩ <;> rfl

theorem tickStep_stores (s : State) : storesOf (tickStep s) = storesOf s := by
  rcases tickStep_cases s with ⟨-, he⟩ | ⟨-, he⟩
  · exact congrArg storesOf he
  · rw [he]
    rfl

/-- The acceptance of a request empties the response buffer (43_sequencer.md R125); no other host write touches the stores. -/
theorem hostWrite_stores (n : RegNum) (v : Word) (s : State) :
    storesOf (hostWrite n v s) = storesOf s ∨ storesOf (hostWrite n v s) = { storesOf s with respBuf := [] } := by
  rcases hostWrite_cases n v s with ⟨-, -, he⟩ | ⟨-, -, he⟩ | ⟨_, _, _, _, _, he⟩ <;> rw [he]
  · exact .inr rfl
  · exact .inl rfl
  · exact .inl rfl

theorem hostProgramStep_stores (s : State) :
    storesOf (hostProgramStep s) = storesOf s ∨ storesOf (hostProgramStep s) = { storesOf s with respBuf := [] } := by
  obtain ⟨u, pc, v, rfl | ⟨n, w, -, rfl⟩, he⟩ := hostProgramStep_cases s <;> rw [he]
  · exact .inl rfl
  · exact hostWrite_stores n w s

/-- Everything a step can do to the stores: nothing, H's emptying of the response buffer by a new request, LT's move of the head of
TXF to the wire, what S does, or the reset input's emptying of all three. -/
theorem step_stores {s t : State} (h : step s = .next t) :
    storesOf t = storesOf s ∨
    storesOf t = { storesOf s with respBuf := [] } ∨
    (nextAgentStep s = .lineTx ∧ s.init = true ∧ ∃ b rest, s.txf = b :: rest ∧
      storesOf t = { storesOf s with txf := rest, wireTx := s.wireTx ++ [b] }) ∨
    (∃ d, nextAgentStep s = .seq d ∧ SeqMoves s t) ∨
    (nextAgentStep s = .resetInput ∧ storesOf t = { respBuf := [], txf := [], wireTx := [] }) := by
  rcases step_next h with ⟨d, hn, hst⟩ | ⟨hn, rfl⟩ | ⟨b, -, hst⟩ | ⟨-, rfl⟩ | ⟨n, v, -, rfl⟩ | ⟨n, -, rfl⟩ | ⟨-, rfl⟩ | ⟨hn, rfl⟩
  · exact .inr (.inr (.inr (.inl ⟨d, hn, seqStep_moves (s := atSeq d s) hst⟩)))
  · rcases lineTxStep_cases (advance s) with ⟨hopen, b, rest, hx, he⟩ | ⟨-, he⟩ <;> rw [he]
    · exact .inr (.inr (.inl ⟨hn, hopen, b, rest, hx, rfl⟩))
    · exact .inl rfl
  · exact .inl (receiveStep_stores (s := advance s) hst)
  · exact .inl (tickStep_stores (advance s))
  · exact (hostWrite_stores n v (advance s)).imp id .inl
  · exact .inl rfl
  · exact (hostProgramStep_stores (advance s)).imp id .inl
  · exact .inr (.inr (.inr (.inr ⟨hn, rfl⟩)))

/-! ### The response buffer (20_memory.md R46) -/

theorem SeqMoves.keeps_wf {s t : State} (h : SeqMoves s t) (hs : s.respBuf.wf = true) : t.respBuf.wf = true := by
  rcases h with hk | hk | ⟨-, n, -, hk⟩ | ⟨bytes, m, hm, hk⟩ <;> rw [respBuf_of_storesOf_eq hk]
  · exact hs
  · exact hs
  · exact hs
  · exact wf_memWriteFrom hm hs

/-- Settles O44: S stores bytes through `memWriteFrom`, and whoever else changes the buffer empties it. -/
theorem everyStepKeepsTheBufferCanonical : Obligations.EveryStepKeepsTheBufferCanonical := by
  unfold Obligations.EveryStepKeepsTheBufferCanonical
  intro s t hs h
  rcases step_stores h with hk | hk | ⟨-, -, b, rest, -, hk⟩ | ⟨d, -, hm⟩ | ⟨-, hk⟩
  · exact respBuf_of_storesOf_eq hk ▸ hs
  · exact respBuf_of_storesOf_eq hk ▸ reset_wf
  · exact respBuf_of_storesOf_eq hk ▸ hs
  · exact hm.keeps_wf hs
  · exact respBuf_of_storesOf_eq hk ▸ reset_wf

/-! ### The line queues (20_memory.md R48) -/

/-- Of what S does, only the queueing in WRITE makes TXF longer. -/
theorem SeqMoves.txf_suffix_or_queued {s t : State} (h : SeqMoves s t) :
    t.txf <:+ s.txf ∨ (s.state = .write ∧ ∃ n : Nat, n ≤ 10 ∧ t.txf = s.txf ++ s.frame.toList.take n) := by
  rcases h with hk | hk | ⟨hs, n, hn, hk⟩ | ⟨bytes, m, -, hk⟩
  · exact .inl (txf_of_storesOf_eq hk ▸ List.suffix_rfl)
  · exact .inl (txf_of_storesOf_eq hk ▸ List.nil_suffix)
  · exact .inr ⟨hs, n, hn, txf_of_storesOf_eq hk⟩
  · exact .inl (txf_of_storesOf_eq hk ▸ List.suffix_rfl)

/-- Settles O50: S queues bytes in WRITE alone, and by the invariant an exchange is a command or a query. -/
theorem onlyWriteQueuesBytes : Obligations.OnlyWriteQueuesBytes := by
  unfold Obligations.OnlyWriteQueuesBytes
  intro s t hinv h
  rcases step_stores h with hk | hk | ⟨-, -, b, rest, hx, hk⟩ | ⟨d, hn, hm⟩ | ⟨-, hk⟩
  · exact .inl (txf_of_storesOf_eq hk ▸ List.suffix_rfl)
  · exact .inl (txf_of_storesOf_eq hk ▸ List.suffix_rfl)
  · have htail : t.txf = rest := txf_of_storesOf_eq hk
    exact .inl (by rw [htail, hx]; exact List.suffix_cons b rest)
  · rcases hm.txf_suffix_or_queued with hsuffix | ⟨hs, hqueued⟩
    · exact .inl hsuffix
    · have hop := hinv.exchange_op (by rw [hs]; rfl)
      exact .inr ⟨⟨d, hn⟩, hs, hop.imp And.left And.left, hqueued⟩
  · exact .inl (txf_of_storesOf_eq hk ▸ List.nil_suffix)

theorem SeqMoves.wireTx_eq {s t : State} (h : SeqMoves s t) : t.wireTx = s.wireTx := by
  rcases h with hk | hk | ⟨-, n, -, hk⟩ | ⟨bytes, m, -, hk⟩ <;> exact wireTx_of_storesOf_eq hk

/-- Settles O51: of the moves in `step_stores`, LT's is the only one on the wire. -/
theorem wireGrowsOnlyFromTheQueue : Obligations.WireGrowsOnlyFromTheQueue := by
  unfold Obligations.WireGrowsOnlyFromTheQueue
  intro s t h hr
  rcases step_stores h with hk | hk | ⟨hn, hopen, b, rest, hx, hk⟩ | ⟨d, -, hm⟩ | ⟨hn, -⟩
  · exact .inl (wireTx_of_storesOf_eq hk)
  · exact .inl (wireTx_of_storesOf_eq hk)
  · have htail : t.txf = rest := txf_of_storesOf_eq hk
    exact .inr ⟨hn, hopen, b, by rw [htail, hx], wireTx_of_storesOf_eq hk⟩
  · exact .inl hm.wireTx_eq
  · exact absurd hn hr

end Sys2Proof.Machine

/-! The encodings (30_encoding.md R70 to R77): the decoder against the encoder, for every instruction and for every word. -/

namespace Sys2Proof

open Machine

/-! ### From the code of an instruction -/

/-- Settles O1, instruction by instruction; SEND_RAW is the one arm with an operand, and holds for every length. -/
theorem decodeOfEncodeIsTheInstruction : Obligations.DecodeOfEncodeIsTheInstruction := by
  unfold Obligations.DecodeOfEncodeIsTheInstruction
  intro i
  cases i with
  | init => exact Laws.RoundTrip.init
  | deinit => exact Laws.RoundTrip.deinit
  | sendCommandRedOn => exact Laws.RoundTrip.sendCommandRedOn
  | sendCommandYellowOn => exact Laws.RoundTrip.sendCommandYellowOn
  | sendCommandGreenOn => exact Laws.RoundTrip.sendCommandGreenOn
  | sendCommandRedSlow => exact Laws.RoundTrip.sendCommandRedSlow
  | sendCommandYellowSlow => exact Laws.RoundTrip.sendCommandYellowSlow
  | sendCommandGreenSlow => exact Laws.RoundTrip.sendCommandGreenSlow
  | sendCommandRedBurst => exact Laws.RoundTrip.sendCommandRedBurst
  | sendCommandYellowBurst => exact Laws.RoundTrip.sendCommandYellowBurst
  | sendCommandGreenBurst => exact Laws.RoundTrip.sendCommandGreenBurst
  | sendCommandLightOff => exact Laws.RoundTrip.sendCommandLightOff
  | queryDevices => exact Laws.RoundTrip.queryDevices
  | sendRaw len => exact Laws.RoundTrip.sendRaw len
  | commandFrameRedOn => exact Laws.RoundTrip.commandFrameRedOn
  | commandFrameYellowOn => exact Laws.RoundTrip.commandFrameYellowOn
  | commandFrameGreenOn => exact Laws.RoundTrip.commandFrameGreenOn
  | commandFrameRedSlow => exact Laws.RoundTrip.commandFrameRedSlow
  | commandFrameYellowSlow => exact Laws.RoundTrip.commandFrameYellowSlow
  | commandFrameGreenSlow => exact Laws.RoundTrip.commandFrameGreenSlow
  | commandFrameRedBurst => exact Laws.RoundTrip.commandFrameRedBurst
  | commandFrameYellowBurst => exact Laws.RoundTrip.commandFrameYellowBurst
  | commandFrameGreenBurst => exact Laws.RoundTrip.commandFrameGreenBurst
  | commandFrameLightOff => exact Laws.RoundTrip.commandFrameLightOff
  | queryFrame => exact Laws.RoundTrip.queryFrame

/-- The bytes of the GREEN_ON frame (41_frame_codec.md R98). -/
theorem encodeCommand_greenOn_bytes : (encodeCommand .greenOn).toList =
    [0x01#8, 0x06#8, 0x00#8, 0xC2#8, 0x00#8, 0x13#8, 0x69#8, 0xFB#8, 0x00#8, 0x00#8] := by decide +kernel

/-- The bytes of the query frame (41_frame_codec.md R99). -/
theorem encodeQuery_bytes : encodeQuery.toList =
    [0xFF#8, 0x03#8, 0x00#8, 0x3F#8, 0x00#8, 0x00#8, 0x60#8, 0x18#8, 0x00#8, 0x00#8] := by decide +kernel

/-- Settles O3: each word and each frame is the code of its instruction, so O1 reads it back. -/
theorem requestWordsDecode : Obligations.RequestWordsDecode := by
  unfold Obligations.RequestWordsDecode
  have hback : ∀ i : Instr, i.wellFormed = true → decode (encode i) = .ok i := decodeOfEncodeIsTheInstruction
  refine ⟨hback .init rfl, hback .deinit rfl, hback .sendCommandRedOn rfl, hback .sendCommandYellowSlow rfl,
    hback .sendCommandGreenBurst rfl, hback .sendCommandLightOff rfl, hback .queryDevices rfl, hback (.sendRaw 0) rfl,
    hback (.sendRaw 255) rfl, ?_, ?_⟩
  · rw [← encodeCommand_greenOn_bytes]
    exact hback .commandFrameGreenOn rfl
  · rw [← encodeQuery_bytes]
    exact hback .queryFrame rfl

/-! ### From a request word -/

/-- OP and ARG are bits 11 to 0 of a request word (30_encoding.md R70). -/
theorem word_low_bits_eq (w : Word) :
    w &&& 0x00000FFF#32 = ((requestOp w).setWidth 32 <<< 8) ||| (requestArg w).setWidth 32 := by
  have hlow : (w.setWidth 12).setWidth 32 = w &&& 0x00000FFF#32 := setWidth_low_bits (by decide) w
  rw [← hlow]
  ext i hi
  by_cases hbyte : i < 8
  · simp [requestArg, hi, hbyte, show i < 12 by omega]
  · have hshift : 8 + (i - 8) = i := by omega
    have hop : i - 8 < 4 ↔ i < 12 := by omega
    simp [requestOp, requestArg, hi, hbyte, hshift, hop]

theorem requestOp_of_low_bits (w : Word) : requestOp w = (w.extractLsb' 0 12).extractLsb' 8 4 := by
  simp [requestOp]

theorem requestArg_of_low_bits (w : Word) : requestArg w = (w.extractLsb' 0 12).extractLsb' 0 8 := by
  simp [requestArg]

theorem encode_sendCommandOf (k : Kind) : encode (sendCommandOf k) = .request (sendCommandWord k) := by cases k <;> rfl

theorem wellFormed_sendCommandOf (k : Kind) : (sendCommandOf k).wellFormed = true := by cases k <;> rfl

/-- The requests that OP and ARG can select (30_encoding.md R71 to R76). -/
theorem decodeOpArg_cases {op : BitVec 4} {arg : Byte} {i : Instr} (h : decodeOpArg op arg = .ok i) :
    (op = 0x1#4 ∧ arg = 0x00#8 ∧ i = .init) ∨
    (op = 0x2#4 ∧ arg = 0x00#8 ∧ i = .deinit) ∨
    (∃ k, op = 0x3#4 ∧ arg = kindCode k ∧ i = sendCommandOf k) ∨
    (op = 0x4#4 ∧ arg = 0x00#8 ∧ i = .queryDevices) ∨
    (op = 0x5#4 ∧ i = .sendRaw arg.toNat) := by
  have hop : ∀ {n : Nat}, op.toNat = n → op = BitVec.ofNat 4 n := by rintro n rfl; simp
  unfold decodeOpArg at h
  split at h
  next hn =>
    split at h <;> cases h
    exact .inl ⟨hop hn, ‹_›, rfl⟩
  next hn =>
    split at h <;> cases h
    exact .inr (.inl ⟨hop hn, ‹_›, rfl⟩)
  next hn =>
    split at h <;> cases h
    next k hk => exact .inr (.inr (.inl ⟨k, hop hn, kindCode_of_kindOf hk, rfl⟩))
  next hn =>
    split at h <;> cases h
    exact .inr (.inr (.inr (.inl ⟨hop hn, ‹_›, rfl⟩)))
  next hn =>
    cases h
    exact .inr (.inr (.inr (.inr ⟨hop hn, rfl⟩)))
  next => cases h

/-- The request that OP and ARG select is encoded as the word of both. -/
theorem encode_of_decodeOpArg {op : BitVec 4} {arg : Byte} {i : Instr} (h : decodeOpArg op arg = .ok i) :
    i.wellFormed = true ∧ encode i = .request ((op.setWidth 32 <<< 8) ||| arg.setWidth 32) := by
  rcases decodeOpArg_cases h with ⟨rfl, rfl, rfl⟩ | ⟨rfl, rfl, rfl⟩ | ⟨k, rfl, rfl, rfl⟩ | ⟨rfl, rfl, rfl⟩ | ⟨rfl, rfl⟩
  · exact ⟨rfl, rfl⟩
  · exact ⟨rfl, rfl⟩
  · exact ⟨wellFormed_sendCommandOf k, encode_sendCommandOf k⟩
  · exact ⟨rfl, rfl⟩
  · refine ⟨decide_eq_true arg.isLt, ?_⟩
    rw [encode, BitVec.ofNat_toNat, BitVec.setWidth_eq]
    rfl

/-- Settles O2: bits 11 to 0 are OP and ARG, and the decoder reads nothing else. -/
theorem encodeOfDecodedRequestIsTheWord : Obligations.EncodeOfDecodedRequestIsTheWord := by
  unfold Obligations.EncodeOfDecodedRequestIsTheWord
  intro w i h
  rw [word_low_bits_eq]
  exact encode_of_decodeOpArg h

/-- Settles O4: a write to CMD uses the word only for OP and ARG, and not even for these while the block is busy. -/
theorem requestIgnoresBits31To12 : Obligations.RequestIgnoresBits31To12 := by
  unfold Obligations.RequestIgnoresBits31To12
  intro v w s hvw
  have hop : requestOp v = requestOp w := by rw [requestOp_of_low_bits, requestOp_of_low_bits, hvw]
  have harg : requestArg v = requestArg w := by rw [requestArg_of_low_bits, requestArg_of_low_bits, hvw]
  have haccept : accept v s = accept w s := by rw [accept, accept, hop, harg]
  have hcmd : ∀ x : Word, hostWrite 0x000#12 x s = hostWriteCmd x s := fun _ => rfl
  rw [hcmd, hcmd, hostWriteCmd, hostWriteCmd, haccept]

end Sys2Proof

/-! Agent H in its program (30_encoding.md R79 to R81): one rule for each primitive, the lines built from them, and the `wait` that a
refusal never lets end. -/

namespace Sys2Proof.Machine

/-! ### The host's own state -/

/-- Agent H's own state: its program, its place in it and the value it read last (log 14). -/
structure HostState where
  prog : List HostPrim
  pc : Nat
  val : Word

def hostStateOf (s : State) : HostState where
  prog := s.hostProg
  pc := s.hostPc
  val := s.hostVal

/-- A host write changes the block alone. -/
theorem hostWrite_hostState (n : RegNum) (v : Word) (s : State) : hostStateOf (hostWrite n v s) = hostStateOf s := by
  rcases hostWrite_cases n v s with ⟨-, -, he⟩ | ⟨-, -, he⟩ | ⟨_, _, _, _, _, he⟩ <;> rw [he] <;> rfl

/-! ### One primitive -/

section

variable {s : State}

theorem hostProgramStep_write {n : RegNum} {v : Word} (h : s.hostProg[s.hostPc]? = some (.write n v)) :
    hostProgramStep s = { hostWrite n v s with hostPc := s.hostPc + 1 } := hostProgramStep_of_getElem h

theorem hostProgramStep_read {n : RegNum} (h : s.hostProg[s.hostPc]? = some (.read n)) :
    hostProgramStep s = { s with hostVal := hostRead n s, hostPc := s.hostPc + 1 } := hostProgramStep_of_getElem h

theorem hostProgramStep_branchIf {bit : Nat} {val : Bool} {t : HostTarget} (h : s.hostProg[s.hostPc]? = some (.branchIf bit val t)) :
    hostProgramStep s =
      { s with hostPc := if s.hostVal.getLsbD bit = val then jumpTo s.hostProg s.hostPc t else s.hostPc + 1 } :=
  hostProgramStep_of_getElem h

theorem hostProgramStep_goto {t : HostTarget} (h : s.hostProg[s.hostPc]? = some (.goto t)) :
    hostProgramStep s = { s with hostPc := jumpTo s.hostProg s.hostPc t } := hostProgramStep_of_getElem h

theorem hostProgramStep_mark {l : Nat} (h : s.hostProg[s.hostPc]? = some (.mark l)) :
    hostProgramStep s = { s with hostPc := s.hostPc + 1 } := hostProgramStep_of_getElem h

theorem hostProgramStep_halt (h : s.hostProg[s.hostPc]? = some .halt) : hostProgramStep s = s := hostProgramStep_of_getElem h

end

/-! ### Primitives in a row -/

@[simp] theorem hostWrite_hostProg (n : RegNum) (v : Word) (s : State) : (hostWrite n v s).hostProg = s.hostProg :=
  congrArg HostState.prog (hostWrite_hostState n v s)

/-- A host write does not depend on where the host is in its program. -/
theorem hostWrite_withHostPc (n : RegNum) (v : Word) (s : State) (pc : Nat) :
    hostWrite n v { s with hostPc := pc } = { hostWrite n v s with hostPc := pc } := by
  unfold hostWrite hostWriteCmd
  repeat' split
  all_goals rfl

theorem hostProgramStep_write_at {n : RegNum} {v : Word} {pc : Nat} {s : State} (h : s.hostProg[pc]? = some (.write n v)) :
    hostProgramStep { s with hostPc := pc } = { hostWrite n v s with hostPc := pc + 1 } := by
  rw [hostProgramStep_write (s := { s with hostPc := pc }) h, hostWrite_withHostPc]

/-- Two steps that read STATUS and branch on one of its bits, as `wait`, `bfail` and `bok` do (30_encoding.md R80). -/
theorem hostProgramStep_readStatus_branchIf {bit : Nat} {val : Bool} {t : HostTarget} {s : State}
    (hread : s.hostProg[s.hostPc]? = some (.read 0x001#12)) (htest : s.hostProg[s.hostPc + 1]? = some (.branchIf bit val t)) :
    hostProgramStep (hostProgramStep s) =
      { s with
        hostVal := statusWord s
        hostPc := if (statusWord s).getLsbD bit = val then jumpTo s.hostProg (s.hostPc + 1) t else s.hostPc + 2 } := by
  rw [hostProgramStep_read hread]
  exact hostProgramStep_branchIf (s := { s with hostVal := statusWord s, hostPc := s.hostPc + 1 }) htest

/-! ### Lines at any place of a program -/

section

variable {pre post : List HostOp} {o : HostOp} {s : State}

/-- At a line, the host's next primitives are the line's expansion, each by its place in it. -/
theorem atLine_prim {p : HostPrim} (h : atLine pre o post s) (i : Nat) (hp : (expandOp o)[i]? = some p) :
    s.hostProg[s.hostPc + i]? = some p :=
  (atLine_getElem h (List.getElem?_eq_some_iff.1 hp).1).trans hp

/-- A line that is one register write is one step that does this write. -/
theorem hostProgramStep_write_line {n : RegNum} {v : Word} (h : atLine pre o post s) (ho : expandOp o = [.write n v]) :
    hostProgramStep s = { hostWrite n v s with hostPc := s.hostPc + 1 } :=
  hostProgramStep_write (atLine_prim h 0 (by rw [ho]; rfl))

/-- A line that reads STATUS and branches on its SUCCESS bit to a label. -/
theorem hostProgramStep_success_line {val : Bool} {l q : Nat} (h : atLine pre o post s) (hl : labelAt l q s)
    (ho : expandOp o = [.read 0x001#12, .branchIf 3 val (.label l)]) :
    hostProgramStep (hostProgramStep s) =
      { s with hostVal := statusWord s, hostPc := if s.success = val then q else s.hostPc + 2 } := by
  rw [hostProgramStep_readStatus_branchIf (atLine_prim h 0 (by rw [ho]; rfl)) (atLine_prim h 1 (by rw [ho]; rfl)),
    statusWord_success, labelAt_jumpTo hl]

/-- The four writes of `cfg`. -/
theorem hostProgramStep_cfg_line {p t r b : Word} (h : atLine pre (.cfg p t r b) post s) :
    hostProgramStep (hostProgramStep (hostProgramStep (hostProgramStep s))) =
      { hostWrite 0x006#12 b (hostWrite 0x005#12 r (hostWrite 0x004#12 t (hostWrite 0x003#12 p s))) with
        hostPc := s.hostPc + 4 } := by
  have hsecond : (hostWrite 0x003#12 p s).hostProg[s.hostPc + 1]? = some (.write 0x004#12 t) := by
    rw [hostWrite_hostProg]
    exact atLine_prim h 1 rfl
  have hthird : (hostWrite 0x004#12 t (hostWrite 0x003#12 p s)).hostProg[s.hostPc + 2]? = some (.write 0x005#12 r) := by
    rw [hostWrite_hostProg, hostWrite_hostProg]
    exact atLine_prim h 2 rfl
  have hfourth : (hostWrite 0x005#12 r (hostWrite 0x004#12 t (hostWrite 0x003#12 p s))).hostProg[s.hostPc + 3]? =
      some (.write 0x006#12 b) := by
    rw [hostWrite_hostProg, hostWrite_hostProg, hostWrite_hostProg]
    exact atLine_prim h 3 rfl
  rw [hostProgramStep_write (atLine_prim h 0 rfl), hostProgramStep_write_at hsecond, hostProgramStep_write_at hthird,
    hostProgramStep_write_at hfourth]

end

/-- The request word of `send_raw N` is 0x500 + N (30_encoding.md R79). -/
theorem sendRaw_word_eq {n : Nat} (h : n < 256) : 0x00000500#32 ||| BitVec.ofNat 32 n = BitVec.ofNat 32 (0x500 + n) := by
  have hor : 0x500 + n = 0x500 ||| n := Nat.shiftLeft_add_eq_or_of_lt (a := 5) (i := 8) h
  apply BitVec.eq_of_toNat_eq
  rw [hor, BitVec.toNat_or, BitVec.toNat_ofNat, BitVec.toNat_ofNat, BitVec.toNat_ofNat, Nat.or_mod_two_pow]

/-- Settles O59: each of these lines expands to one write, of the word it is to write. -/
theorem hostProgramLinesWriteTheirRequest : Obligations.HostProgramLinesWriteTheirRequest := by
  unfold Obligations.HostProgramLinesWriteTheirRequest
  intro pre post s
  refine ⟨fun h => hostProgramStep_write_line h rfl, fun h => hostProgramStep_write_line h rfl, fun p hp h => ?_,
    fun h => hostProgramStep_write_line h rfl, fun n hn h => ?_, fun v h => hostProgramStep_write_line h rfl⟩
  · have hword : ∀ q ∈ [(Kind.redOn, 0x00000311#32), (.yellowOn, 0x00000312#32), (.greenOn, 0x00000313#32),
        (.redSlow, 0x00000321#32), (.yellowSlow, 0x00000322#32), (.greenSlow, 0x00000323#32), (.redBurst, 0x00000331#32),
        (.yellowBurst, 0x00000332#32), (.greenBurst, 0x00000333#32), (.lightOff, 0x00000360#32)],
        q.2 = sendCommandWord q.1 := by decide
    rw [hword p hp]
    exact hostProgramStep_write_line h rfl
  · rw [← sendRaw_word_eq hn]
    exact hostProgramStep_write_line h rfl

/-- Settles O60, line by line. -/
theorem hostPseudoInstructionsRunAsExpanded : Obligations.HostPseudoInstructionsRunAsExpanded := by
  unfold Obligations.HostPseudoInstructionsRunAsExpanded
  intro pre post s
  refine ⟨fun _ _ _ _ h => hostProgramStep_cfg_line h, fun _ h => hostProgramStep_write_line h rfl, fun l q hl => ⟨?_, ?_, ?_⟩,
    fun h => hostProgramStep_halt (atLine_prim h 0 rfl), fun _ h => hostProgramStep_mark (atLine_prim h 0 rfl)⟩
  · exact fun h => hostProgramStep_success_line h hl rfl
  · exact fun h => hostProgramStep_success_line h hl rfl
  · intro h
    rw [hostProgramStep_goto (atLine_prim h 0 rfl), labelAt_jumpTo hl]

/-! ### The loop of a `wait` -/

/-- Settles O57: the jump back from the test of DONE goes one primitive back, to the read of STATUS. -/
theorem hostWaitPollsDone : Obligations.HostWaitPollsDone := by
  unfold Obligations.HostWaitPollsDone
  rintro p s rfl hread htest
  rw [hostProgramStep_readStatus_branchIf hread htest, statusWord_done]
  cases s.done <;> rfl

/-- Whether the host stands in a `wait` is a matter of its own state. -/
theorem hostWaitsAt_of_hostStateOf_eq {p : Nat} {s t : State} (h : hostStateOf t = hostStateOf s) (hw : hostWaitsAt p s) :
    hostWaitsAt p t := by
  simp only [hostStateOf, HostState.mk.injEq] at h
  obtain ⟨hprog, hpc, hval⟩ := h
  unfold hostWaitsAt
  rw [hprog, hpc, hval]
  exact hw

theorem lineTxStep_hostState (s : State) : hostStateOf (lineTxStep s) = hostStateOf s := by
  rcases lineTxStep_cases s with ⟨-, _, _, -, he⟩ | ⟨-, he⟩ <;> rw [he]
  rfl

theorem receiveStep_hostState {b : Byte} {s t : State} (h : receiveStep b s = .next t) : hostStateOf t = hostStateOf s := by
  rcases receiveStep_next h with rfl | ⟨-, -, -, rfl⟩ <;> rfl

theorem tickStep_hostState (s : State) : hostStateOf (tickStep s) = hostStateOf s := by
  rcases tickStep_cases s with ⟨-, he⟩ | ⟨-, he⟩ <;> rw [he]
  rfl

/-- After a refusal S can never step (43_sequencer.md R128). -/
theorem seqStep_of_refused {s : State} (h : s.refused = true) : seqStep s = .next s := seqStep_off (by simp [seqEnabled, h])

/-- In a block that has refused, only the host's own steps and the reset input can change the host's state. -/
theorem refused_step_hostState {s t : State} (href : s.refused = true) (h : step s = .next t) :
    hostStateOf t = hostStateOf s ∨ (∃ n, nextAgentStep s = .hostRead n) ∨
      (nextAgentStep s = .hostProgram ∧ t = hostProgramStep (advance s)) ∨ nextAgentStep s = .resetInput := by
  rcases step_next h with ⟨d, -, hst⟩ | ⟨-, rfl⟩ | ⟨b, -, hst⟩ | ⟨-, rfl⟩ | ⟨n, v, -, rfl⟩ | ⟨n, hn, -⟩ | ⟨hn, rfl⟩ | ⟨hn, -⟩
  · rw [seqStep_of_refused (s := withDraw d (advance s)) href] at hst
    cases hst
    exact .inl rfl
  · exact .inl (lineTxStep_hostState (advance s))
  · exact .inl (receiveStep_hostState (s := advance s) hst)
  · exact .inl (tickStep_hostState (advance s))
  · exact .inl (hostWrite_hostState n v (advance s))
  · exact .inr (.inl ⟨n, hn⟩)
  · exact .inr (.inr (.inl ⟨hn, rfl⟩))
  · exact .inr (.inr (.inr hn))

/-- While DONE is 0, a step of the host's program goes round the loop of a `wait`. -/
theorem hostProgramStep_stays_in_wait {p : Nat} {s : State} (hdone : s.done = false) (hw : hostWaitsAt p s) :
    hostWaitsAt p (hostProgramStep s) := by
  obtain ⟨hread, htest, rfl | ⟨hpc, hval⟩⟩ := hw
  · rw [hostProgramStep_read hread]
    exact ⟨hread, htest, .inr ⟨rfl, (statusWord_done s).trans hdone⟩⟩
  · rw [hostProgramStep_branchIf (hpc ▸ htest), if_pos hval]
    exact ⟨hread, htest, .inl (by simp [jumpTo, hpc])⟩

/-- A block that has refused is still busy, and not done (43_sequencer.md R128). -/
theorem Inv.done_of_refused {s : State} (h : Inv s) (href : s.refused = true) : s.done = false := by
  have hidle : s.state ≠ .idle := by rw [h.refused_at href]; decide
  exact h.busy_done (Bool.of_not_eq_false (mt h.idle_busy.2 hidle))

/-- Settles O58: REFUSED is sticky and keeps DONE at 0, and with DONE at 0 the host's step goes round its loop. -/
theorem waitNeverEndsAfterARefusal : Obligations.WaitNeverEndsAfterARefusal := by
  unfold Obligations.WaitNeverEndsAfterARefusal
  intro p s t hinv href hw h hreset hbare
  have href' : t.refused = true := (faultAndRefusedAreSticky s t h hreset).2 href
  refine ⟨href', (everyStepKeepsTheInvariant s t hinv h).done_of_refused href', ?_⟩
  rcases refused_step_hostState href h with hk | ⟨n, hn⟩ | ⟨-, rfl⟩ | hn
  · exact hostWaitsAt_of_hostStateOf_eq hk hw
  · exact absurd hn (hbare n)
  · exact hostProgramStep_stays_in_wait (s := advance s) (hinv.done_of_refused href) hw
  · exact absurd hn hreset

end Sys2Proof.Machine

/-! The CRC16 generator (40_crc16.md R85 to R92): the bit-serial circuit against the checksum function, eight bit steps to a byte; and
a checksum sent behind its payload, which shifts itself out of the accumulator. -/

namespace Sys2Proof.Machine

/-! ### The serial generator (40_crc16.md R88) -/

/-- In the middle of a byte, where no payload byte is loaded, a bit step only shifts. -/
theorem crcClock_within_byte {p : List Byte} {acc : Half} {k b : Nat} (hk : k < 6) (hb : b ≠ 0) :
    crcClock p { acc := acc, idx := k, bit := b } =
      if b + 1 = 8 then { acc := crcBitStep acc, idx := k + 1, bit := 0 }
      else { acc := crcBitStep acc, idx := k, bit := b + 1 } := by
  simp [crcClock, hk, hb]

/-- At the start of a byte, a bit step loads payload byte CRC_IDX and shifts. -/
theorem crcClock_byte_start {p : List Byte} {acc : Half} {k : Nat} (hk : k < 6) :
    crcClock p { acc := acc, idx := k, bit := 0 } =
      { acc := crcBitStep (acc ^^^ (p.getD k 0).setWidth 16), idx := k, bit := 1 } := by
  simp [crcClock, hk]

/-- The bit steps left in a byte shift that often and move on to the next byte. -/
theorem crcClocks_rest_of_byte {p : List Byte} {k n b : Nat} (acc : Half) (hk : k < 6) (hb : b ≠ 0) (hn : b + (n + 1) = 8) :
    crcClocks p (n + 1) { acc := acc, idx := k, bit := b } = { acc := crcBitSteps (n + 1) acc, idx := k + 1, bit := 0 } := by
  induction n generalizing acc b with
  | zero => rw [crcClocks_succ, crcClock_within_byte hk hb, if_pos hn]; rfl
  | succ n ih =>
    rw [crcClocks_succ, crcClock_within_byte hk hb, if_neg (by omega), ih _ (Nat.succ_ne_zero b) (by omega)]
    rfl

/-- Eight bit steps fold in one payload byte (40_crc16.md R86). -/
theorem crcClocks_byte {p : List Byte} {k : Nat} (acc : Half) (hk : k < 6) :
    crcClocks p 8 { acc := acc, idx := k, bit := 0 } = { acc := crcByte acc (p.getD k 0), idx := k + 1, bit := 0 } := by
  rw [crcClocks_succ, crcClock_byte_start hk, crcClocks_rest_of_byte (n := 6) _ hk Nat.one_ne_zero rfl]
  rfl

/-- The checksum of one byte more of a sequence. -/
theorem crc16_take_succ {p : List Byte} {k : Nat} (hk : k < p.length) :
    crc16 (p.take (k + 1)) = crcByte (crc16 (p.take k)) (p.getD k 0) := by
  rw [List.take_succ_eq_append_getElem hk, List.getD_eq_getElem _ _ hk]
  exact crcFold_append _ _ _

/-- At each byte boundary the accumulator is the checksum of the bytes before it. -/
theorem crcClocks_bytes {p : List Byte} {k : Nat} (hp : p.length = 6) (hk : k ≤ 6) :
    crcClocks p (8 * k) crcSeed = { acc := crc16 (p.take k), idx := k, bit := 0 } := by
  induction k with
  | zero => rfl
  | succ k ih => rw [Nat.mul_succ, crcClocks_add, ih (by omega), crcClocks_byte _ hk, crc16_take_succ (hp ▸ hk)]

/-- Settles O7, by the byte boundaries: the last of them is after the 48 steps. -/
theorem serialGeneratorComputesCrc16 : Obligations.SerialGeneratorComputesCrc16 := by
  unfold Obligations.SerialGeneratorComputesCrc16
  refine ⟨fun p k hk => crcClocks_bytes p.length_toList hk, fun p => ?_⟩
  have h48 := crcClocks_bytes p.length_toList (Nat.le_refl 6)
  rwa [List.take_of_length_le p.length_toList.le] at h48

/-! ### The residue (40_crc16.md R91) -/

/-- Where the low bits are 0, no shift iteration applies the polynomial. -/
theorem crcBitSteps_of_low_zero {n : Nat} {acc : Half} (h : ∀ i < n, acc.getLsbD i = false) : crcBitSteps n acc = acc >>> n := by
  induction n generalizing acc with
  | zero => simp
  | succ n ih =>
    have hstep : crcBitStep acc = acc >>> 1 := if_neg (Bool.eq_false_iff.1 (h 0 n.succ_pos))
    have hlow : ∀ i < n, (acc >>> 1).getLsbD i = false := fun i hi => by
      rw [BitVec.getLsbD_ushiftRight]
      exact h _ (by omega)
    rw [crcBitSteps_succ, hstep, ih hlow, ← BitVec.shiftRight_add, Nat.add_comm]

/-- Folding its own low byte into an accumulator leaves the high byte. -/
theorem crcByte_lowByte (c : Half) : crcByte c (lowByte c) = (highByte c).setWidth 16 := by
  have hlow : ∀ i < 8, (c ^^^ (lowByte c).setWidth 16).getLsbD i = false := fun i hi => by
    simp [lowByte, hi, show i < 16 by omega]
  rw [crcByte, crcBitSteps_of_low_zero hlow]
  ext i hi
  have hbound : c.getLsbD (8 + i) = true → i < 8 := fun hc => by
    have hlt := BitVec.lt_of_getLsbD hc
    omega
  simpa [lowByte, highByte] using hbound

/-- Folding the only byte of an accumulator into it leaves 0. -/
theorem crcByte_self (b : Byte) : crcByte (b.setWidth 16) b = 0x0000#16 := by
  rw [crcByte, BitVec.xor_self, crcBitSteps_of_low_zero (by simp)]
  simp

/-- A checksum folded into itself, low byte first, leaves 0. -/
theorem crcFold_own_bytes (c : Half) : crcFold c [lowByte c, highByte c] = 0x0000#16 := by
  rw [crcFold_cons, crcByte_lowByte, crcFold_cons, crcByte_self, crcFold_nil]

/-- ASSEMBLE as a sequence (41_frame_codec.md R97): the payload, its checksum low byte first, two zero bytes. -/
theorem assemble_toList (p : Vector Byte 6) :
    (assemble p).toList = p.toList ++ [lowByte (crc16 p.toList), highByte (crc16 p.toList), 0x00#8, 0x00#8] := by
  have hp : p.toList = [p[0], p[1], p[2], p[3], p[4], p[5]] := List.ext_getElem p.length_toList (by grind)
  exact congrArg (· ++ _) hp.symm

/-- Settles O9: the accumulator stands at the payload's checksum when the checksum's own two bytes come in. -/
theorem checksumResidueIsZero : Obligations.ChecksumResidueIsZero := by
  unfold Obligations.ChecksumResidueIsZero
  intro p
  have htake : (assemble p).toList.take 8 = p.toList ++ [lowByte (crc16 p.toList), highByte (crc16 p.toList)] := by
    rw [assemble_toList, List.take_append, p.length_toList, List.take_of_length_le (by simp)]
    rfl
  rw [htake]
  exact (crcFold_append _ _ _).trans (crcFold_own_bytes _)

/-! ### The eleven payloads (40_crc16.md R92) -/

/-- Settles O8: the checksums of the eleven fixed payloads, evaluated. -/
theorem checksumsOfThePayloads : Obligations.ChecksumsOfThePayloads := by
  unfold Obligations.ChecksumsOfThePayloads
  exact ⟨by decide +kernel, by decide +kernel⟩

end Sys2Proof.Machine

/-! The frame codec (41_frame_codec.md R95 to R106). The checker's tests of length, suffix and checksum let through exactly what ASSEMBLE
makes, and its verdict there depends on the payload alone. -/

namespace Sys2Proof.Machine

/-! ### The two bytes of a checksum (41_frame_codec.md R106) -/

theorem lowByte_crcOf (f : List Byte) : lowByte (crcOf f) = f.getD 6 0 := by
  ext i hi
  simp [lowByte, crcOf, hi, show i < 16 by omega]

theorem highByte_crcOf (f : List Byte) : highByte (crcOf f) = f.getD 7 0 := by
  ext i hi
  simp [highByte, crcOf, hi, show 8 + i < 16 by omega]

theorem eq_of_lowByte_eq_of_highByte_eq {c d : Half} (hlow : lowByte c = lowByte d) (hhigh : highByte c = highByte d) : c = d := by
  have hlow' : c.toNat % 256 = d.toNat % 256 := by simpa [lowByte] using congrArg BitVec.toNat hlow
  have hhigh' : c.toNat / 256 % 256 = d.toNat / 256 % 256 := by
    simpa [highByte, Nat.shiftRight_eq_div_pow] using congrArg BitVec.toNat hhigh
  exact BitVec.eq_of_toNat_eq (by omega)

/-! ### ASSEMBLE (41_frame_codec.md R97) -/

theorem assemble_take_six (p : Vector Byte 6) : (assemble p).toList.take 6 = p.toList := by
  rw [assemble_toList]
  exact List.take_left' p.length_toList

theorem crcOf_assemble (p : Vector Byte 6) : crcOf (assemble p).toList = crc16 p.toList :=
  eq_of_lowByte_eq_of_highByte_eq (lowByte_crcOf _) (highByte_crcOf _)

/-- Settles O6: the payload comes first in the sequence, and a checksum is made of its two bytes. -/
theorem assembledFrameCarriesPayloadAndChecksum : Obligations.AssembledFrameCarriesPayloadAndChecksum := by
  unfold Obligations.AssembledFrameCarriesPayloadAndChecksum
  exact fun p => ⟨assemble_take_six p, crcOf_assemble p, rfl⟩

/-- What passes the tests of length, suffix and checksum is ASSEMBLE of its first six bytes. -/
theorem eq_assemble_of_crcOf_eq {f : List Byte} (hlen : f.length = 10) (h8 : f.getD 8 0 = 0x00#8) (h9 : f.getD 9 0 = 0x00#8)
    (hcrc : crcOf f = crc16 (f.take 6)) : ∃ p : Vector Byte 6, f = (assemble p).toList := by
  have htail : f.drop 6 = [f.getD 6 0, f.getD 7 0, f.getD 8 0, f.getD 9 0] :=
    List.ext_getElem (by simp [hlen]) (by grind)
  obtain ⟨p, hp⟩ : ∃ p : Vector Byte 6, p.toList = f.take 6 := ⟨⟨(f.take 6).toArray, by simp [hlen]⟩, rfl⟩
  refine ⟨p, ?_⟩
  calc f = f.take 6 ++ f.drop 6 := (List.take_append_drop 6 f).symm
    _ = p.toList ++ [lowByte (crc16 p.toList), highByte (crc16 p.toList), 0x00#8, 0x00#8] := by
      rw [htail, h8, h9, hp, ← hcrc, lowByte_crcOf, highByte_crcOf]
    _ = (assemble p).toList := (assemble_toList p).symm

/-! ### FRAME_CHECK (41_frame_codec.md R101) -/

/-- The verdict of the frame checker on an assembled payload. -/
def payloadVerdict (p : Vector Byte 6) : Verdict :=
  if p.toList = queryPayload.toList then .query
  else if p.toList.take 5 = [0x01#8, 0x06#8, 0x00#8, 0xC2#8, 0x00#8] then
    (kindOf (p.toList.getD 5 0)).elim (.invalid .kind) .command
  else .invalid .leading

theorem frameCheck_assemble (p : Vector Byte 6) : frameCheck (assemble p).toList = payloadVerdict p := by
  have htake : (assemble p).toList.take 5 = p.toList.take 5 := by
    rw [← assemble_take_six p, List.take_take]
    rfl
  have hkind : (assemble p).toList.getD 5 0 = p.toList.getD 5 0 := by
    rw [← assemble_take_six p]
    rfl
  unfold frameCheck payloadVerdict
  rw [if_neg (by simp), if_neg (by simp [assemble]), if_neg (by simp [crcOf_assemble, assemble_take_six]), htake,
    assemble_take_six, hkind]
  cases kindOf (p.toList.getD 5 0) <;> rfl

theorem frameCheck_invalid_or_assembled (f : List Byte) :
    (∃ r, frameCheck f = .invalid r) ∨ ∃ p : Vector Byte 6, f = (assemble p).toList := by
  unfold frameCheck
  split
  · exact .inl ⟨_, rfl⟩
  · next hlen =>
    split
    · exact .inl ⟨_, rfl⟩
    · next hsuffix =>
      split
      · exact .inl ⟨_, rfl⟩
      · next hcrc =>
        obtain ⟨h8, h9⟩ := not_or.1 hsuffix
        exact .inr (eq_assemble_of_crcOf_eq (not_not.1 hlen) (not_not.1 h8) (not_not.1 h9) (not_not.1 hcrc))

theorem payloadVerdict_queryPayload : payloadVerdict queryPayload = .query := if_pos rfl

theorem payloadVerdict_kindPayload (k : Kind) : payloadVerdict (kindPayload k) = .command k := by
  simp [payloadVerdict, kindPayload, queryPayload]

theorem eq_queryPayload_of_payloadVerdict {p : Vector Byte 6} (h : payloadVerdict p = .query) : p = queryPayload := by
  unfold payloadVerdict at h
  split at h
  · next hquery => exact Vector.toList_inj.1 hquery
  · split at h
    · cases hk : kindOf (p.toList.getD 5 0) <;> rw [hk] at h <;> cases h
    · cases h

theorem eq_kindPayload {p : Vector Byte 6} {k : Kind} (hhead : p.toList.take 5 = [0x01#8, 0x06#8, 0x00#8, 0xC2#8, 0x00#8])
    (hkind : p.toList.getD 5 0 = kindCode k) : p = kindPayload k := by
  have hlen : 5 < p.toList.length := by simp
  refine Vector.toList_inj.1 ?_
  calc p.toList = p.toList.take 6 := (List.take_of_length_le (by simp)).symm
    _ = p.toList.take 5 ++ [p.toList.getD 5 0] := by rw [List.take_succ_eq_append_getElem hlen, List.getD_eq_getElem _ _ hlen]
    _ = _ := by rw [hhead, hkind]; rfl

theorem eq_kindPayload_of_payloadVerdict {p : Vector Byte 6} {k : Kind} (h : payloadVerdict p = .command k) : p = kindPayload k := by
  unfold payloadVerdict at h
  split at h
  · cases h
  · split at h
    · next hhead =>
      cases hl : kindOf (p.toList.getD 5 0) <;> rw [hl] at h <;> cases h
      exact eq_kindPayload hhead (kindCode_of_kindOf hl)
    · cases h

theorem frameCheck_encodeCommand (k : Kind) : frameCheck (encodeCommand k).toList = .command k :=
  (frameCheck_assemble _).trans (payloadVerdict_kindPayload k)

theorem frameCheck_encodeQuery : frameCheck encodeQuery.toList = .query :=
  (frameCheck_assemble _).trans payloadVerdict_queryPayload

/-- A verdict other than INVALID is one on a payload. -/
theorem frameCheck_valid {f : List Byte} {v : Verdict} (h : frameCheck f = v) (hv : ∀ r, v ≠ .invalid r) :
    ∃ p : Vector Byte 6, f = (assemble p).toList ∧ payloadVerdict p = v := by
  rcases frameCheck_invalid_or_assembled f with ⟨r, hr⟩ | ⟨p, rfl⟩
  · exact absurd (h.symm.trans hr) (hv r)
  · exact ⟨p, rfl, (frameCheck_assemble p).symm.trans h⟩

theorem encodeCommand_injective {k l : Kind} (h : encodeCommand k = encodeCommand l) : k = l := by
  have hverdict := congrArg (fun f => frameCheck f.toList) h
  simpa [frameCheck_encodeCommand] using hverdict

theorem encodeCommand_ne_encodeQuery (k : Kind) : encodeCommand k ≠ encodeQuery := fun h => by
  have hverdict := congrArg (fun f => frameCheck f.toList) h
  simp [frameCheck_encodeCommand, frameCheck_encodeQuery] at hverdict

/-- Settles O5: both ways through the verdict on the payload; with different verdicts the eleven frames are different. -/
theorem checkerAcceptsExactlyTheEncodedFrames : Obligations.CheckerAcceptsExactlyTheEncodedFrames := by
  unfold Obligations.CheckerAcceptsExactlyTheEncodedFrames
  refine ⟨frameCheck_encodeCommand, frameCheck_encodeQuery, fun f k h => ?_, fun f h => ?_, fun _ _ => encodeCommand_injective,
    encodeCommand_ne_encodeQuery⟩
  · obtain ⟨p, rfl, hp⟩ := frameCheck_valid h (by simp)
    rw [eq_kindPayload_of_payloadVerdict hp, encodeCommand]
  · obtain ⟨p, rfl, hp⟩ := frameCheck_valid h (by simp)
    rw [eq_queryPayload_of_payloadVerdict hp, encodeQuery]

end Sys2Proof.Machine

/-! The frames that ENCODE makes, and what becomes of them (41_frame_codec.md R98 to R104): each is written to FRAME byte for byte, and on
a healthy bus what has been sent and what is queued behind it are whole frames. -/

namespace Sys2Proof.Machine

/-! ### ENCODE (43_sequencer.md R134) -/

/-- A frame instruction whose payload has the checksum `c`. -/
theorem exec_frame_of_crc16 {i : Instr} {p : Vector Byte 6} {c : Half} (hi : payloadOf i = some p) (hc : crc16 p.toList = c)
    (s : State) :
    exec i s = .next { s with
      frame := #v[p[0], p[1], p[2], p[3], p[4], p[5], lowByte c, highByte c, 0x00#8, 0x00#8]
      crc := { acc := c, idx := 6, bit := 0 }
      state := .write } := by
  subst hc
  rw [exec_payload hi, serialGeneratorComputesCrc16.2 p]
  rfl

/-- Settles O24: the bytes of each frame are those of its payload and of the payload's checksum, as O8 gives it. -/
theorem encodeWritesTheFrame : Obligations.EncodeWritesTheFrame := by
  unfold Obligations.EncodeWritesTheFrame
  intro s
  obtain ⟨hkinds, hquery⟩ := checksumsOfThePayloads
  simp only [allKinds, List.map_cons, List.map_nil, List.cons.injEq, and_true] at hkinds
  obtain ⟨hro, hyo, hgo, hrs, hys, hgs, hrb, hyb, hgb, hoff⟩ := hkinds
  simp only [List.forall_mem_cons, List.not_mem_nil, false_imp_iff, implies_true, and_true]
  exact ⟨exec_frame_of_crc16 rfl hro s, exec_frame_of_crc16 rfl hyo s, exec_frame_of_crc16 rfl hgo s,
    exec_frame_of_crc16 rfl hrs s, exec_frame_of_crc16 rfl hys s, exec_frame_of_crc16 rfl hgs s,
    exec_frame_of_crc16 rfl hrb s, exec_frame_of_crc16 rfl hyb s, exec_frame_of_crc16 rfl hgb s,
    exec_frame_of_crc16 rfl hoff s, exec_frame_of_crc16 rfl hquery s⟩

/-! ### Whole valid frames (41_frame_codec.md R104) -/

/-- ENCODE makes valid frames only. -/
theorem latchedFrame_valid {s : State} {f : Vector Byte 10} (h : latchedFrame s = some f) : validFrame f := by
  unfold latchedFrame at h
  split at h
  · obtain ⟨k, -, rfl⟩ := Option.map_eq_some_iff.1 h
    simp [validFrame, frameCheck_encodeCommand]
  · cases h
    simp [validFrame, frameCheck_encodeQuery]

theorem wholeFrames_nil : wholeFrames [] := ⟨[], by simp, rfl⟩

theorem wholeFrames_append {bs : List Byte} {f : Vector Byte 10} (hbs : wholeFrames bs) (hf : validFrame f) :
    wholeFrames (bs ++ f.toList) := by
  obtain ⟨fs, hfs, rfl⟩ := hbs
  refine ⟨fs ++ [f], fun g hg => ?_, by simp⟩
  rcases List.mem_append.1 hg with hg | hg
  · exact hfs g hg
  · exact List.mem_singleton.1 hg ▸ hf

/-! ### What is sent and what is queued behind it -/

/-- The bytes a block has put on the bus and, behind them, those it has queued to send. -/
def sentAndQueued (s : State) : List Byte := s.wireTx ++ s.txf

theorem sentAndQueued_of_storesOf_eq {s : State} {q : Stores} (h : storesOf s = q) : sentAndQueued s = q.wireTx ++ q.txf :=
  h ▸ rfl

/-- In DISPATCH bytes are lost only by a DEINIT that finds some queued. -/
theorem stepDispatch_sentAndQueued {s t : State} (hclosed : s.init = false → s.txf = [])
    (hdeinit : s.init = true → fetchRequest s = .ok .deinit → s.txf = []) (h : stepDispatch s = .next t) :
    sentAndQueued t = sentAndQueued s := by
  rcases stepDispatch_next h with ⟨i, hi, he⟩ | ⟨e, -, rfl⟩
  · obtain ⟨-, -, -, hpay⟩ := decodeOpArg_ok hi
    rcases exec_next he with ⟨-, hc, -, rfl⟩ | ⟨rfl, ho, rfl⟩ | ⟨-, e, -, rfl⟩ | ⟨-, -, rfl⟩ | ⟨_, -, -, rfl⟩ | ⟨p, hp, -⟩
    · simp [sentAndQueued, openSession, hclosed hc]
    · simp [sentAndQueued, closeSession, hdeinit ho hi]
    · rfl
    · rfl
    · rfl
    · simp [hpay] at hp
  · rfl

/-- A full write queues the whole frame (43_sequencer.md R135). -/
theorem stepWrite_sentAndQueued {s t : State} (hopen : s.init = true) (hfull : s.draw.wr = .ok 10) (h : stepWrite s = .next t) :
    sentAndQueued t = sentAndQueued s ++ s.frame.toList := by
  obtain ⟨-, ⟨hc, -⟩ | ⟨-, -, rfl⟩ | ⟨-, hpartial, -⟩⟩ := stepWrite_next h
  · simp [hopen] at hc
  · have htake : s.frame.toList.take 10 = s.frame.toList := List.take_of_length_le (by simp)
    simp [sentAndQueued, queueFrame, htake]
  · exact absurd hfull hpartial

/-- Outside DISPATCH and WRITE, S neither sends nor queues nor discards. -/
theorem seqBody_sentAndQueued {s t : State} (hd : s.state ≠ .dispatch) (hw : s.state ≠ .write) (h : seqBody s = .next t) :
    sentAndQueued t = sentAndQueued s := by
  unfold seqBody at h
  cases hq : s.state <;> simp only [hq] at h
  case idle => cases h; rfl
  case dispatch => exact absurd hq hd
  case encode => exact sentAndQueued_of_storesOf_eq (stepEncode_stores h)
  case write => exact absurd hq hw
  case drain =>
    rcases stepDrain_next h with ⟨-, rfl⟩ | ⟨-, u, ⟨rfl, -⟩ | ⟨rfl, -⟩, ⟨-, rfl⟩ | ⟨-, rfl⟩⟩ <;> rfl
  case flush => obtain ⟨-, ⟨-, rfl⟩ | ⟨-, rfl⟩⟩ := stepFlush_next h <;> rfl
  case settle => obtain ⟨-, rfl⟩ := stepSettle_next h; rfl
  case read => rcases stepRead_next h with ⟨-, rfl⟩ | ⟨-, -, rfl⟩ | ⟨-, -, -, _, -, rfl⟩ <;> rfl
  case check => rcases stepCheck_next h with ⟨-, rfl⟩ | ⟨-, -, rfl⟩ | ⟨-, -, rfl⟩ <;> rfl
  case fallback => rcases stepFallback_next h with ⟨-, rfl⟩ | ⟨-, -, rfl⟩ | ⟨-, -, -, _, -, rfl⟩ <;> rfl

/-- A step of S with a full write that drops no queue leaves the bytes sent and queued, or adds a valid frame to them. -/
theorem seqStep_sentAndQueued {s t : State} (hinv : Inv s) (hfull : s.draw.wr = .ok 10) (hdrop : ¬ dropsQueue s)
    (h : seqStep s = .next t) :
    sentAndQueued t = sentAndQueued s ∨ ∃ f, validFrame f ∧ sentAndQueued t = sentAndQueued s ++ f.toList := by
  rcases seqStep_next h with ⟨-, rfl⟩ | ⟨he, hbody⟩
  · exact .inl rfl
  · by_cases hd : s.state = .dispatch
    · have hdeinit : s.init = true → fetchRequest s = .ok .deinit → s.txf = [] := fun hopen hfetch =>
        by_contra fun hne => hdrop ⟨hd, (hinv.running he).not_refused, hfetch, hopen, hne⟩
      rw [seqBody, hd] at hbody
      exact .inl (stepDispatch_sentAndQueued (fun hc => (hinv.closed_empty hc).1) hdeinit hbody)
    · by_cases hw : s.state = .write
      · have hx : inExchange s.state = true := by rw [hw]; rfl
        have hvalid := latchedFrame_valid (hinv.frame_latched hx (by simp [hw]))
        rw [seqBody, hw] at hbody
        exact .inr ⟨s.frame, hvalid, stepWrite_sentAndQueued (hinv.exchange_open hx) hfull hbody⟩
      · exact .inl (seqBody_sentAndQueued hd hw hbody)

/-- Settles O52, by what a step can do to the stores; S adds whole frames, LT moves a byte from the queue to the wire behind which it
stood, and the reset input empties both. -/
theorem wireCarriesWholeValidFrames : Obligations.WireCarriesWholeValidFrames := by
  unfold Obligations.WireCarriesWholeValidFrames
  intro s t hinv hwhole hst hseq
  change wholeFrames (sentAndQueued s) at hwhole
  change wholeFrames (sentAndQueued t)
  rcases step_stores hst with hk | hk | ⟨-, -, b, rest, hx, hk⟩ | ⟨d, hn, -⟩ | ⟨-, hk⟩
  · rwa [sentAndQueued_of_storesOf_eq hk]
  · rwa [sentAndQueued_of_storesOf_eq hk]
  · have hmoved : sentAndQueued t = sentAndQueued s := by
      rw [sentAndQueued_of_storesOf_eq hk, sentAndQueued, hx, List.append_assoc]
      rfl
    rwa [hmoved]
  · obtain ⟨hfull, hdrop⟩ := hseq d hn
    rw [step_seq hn] at hst
    have hinv' : Inv (atSeq d s) := { hinv with }
    rcases seqStep_sentAndQueued hinv' hfull hdrop hst with hsame | ⟨f, hf, hadd⟩
    · rwa [hsame]
    · rw [hadd]
      exact wholeFrames_append hwhole hf
  · rw [sentAndQueued_of_storesOf_eq hk]
    exact wholeFrames_nil

end Sys2Proof.Machine

/-! The transport's own agents, exactly (42_transport.md R118 to R120): an equation for each case of LT, of RD and of TK, and with them
the complete next state of the machine. -/

namespace Sys2Proof.Machine

/-! ### The step of each agent -/

theorem step_lineTx {s : State} (h : nextAgentStep s = .lineTx) : step s = .next (lineTxStep (advance s)) := by
  simp only [step, agentStep, h]

theorem step_receive {b : Byte} {s : State} (h : nextAgentStep s = .receive b) : step s = receiveStep b (advance s) := by
  simp only [step, agentStep, h]

theorem step_tick {s : State} (h : nextAgentStep s = .tick) : step s = .next (tickStep (advance s)) := by
  simp only [step, agentStep, h]

/-! ### LT (42_transport.md R118) -/

theorem lineTxStep_send {b : Byte} {rest : List Byte} {s : State} (hopen : s.init = true) (hx : s.txf = b :: rest) :
    lineTxStep s = { s with txf := rest, wireTx := s.wireTx ++ [b] } := by
  simp [lineTxStep, hopen, hx]

theorem lineTxStep_idle {s : State} (h : s.init = false ∨ s.txf = []) : lineTxStep s = s := by
  rcases h with hclosed | hempty
  · simp [lineTxStep, hclosed]
  · simp [lineTxStep, hempty]

/-! ### RD (42_transport.md R119) -/

theorem receiveStep_closed {s : State} (hclosed : s.init = false) (b : Byte) : receiveStep b s = .next s := by
  simp [receiveStep, hclosed]

theorem receiveStep_room {s : State} (hopen : s.init = true) (hlegal : s.params.legal = true)
    (hroom : s.rxf.length < s.params.rxDepth) (b : Byte) : receiveStep b s = .next { s with rxf := s.rxf ++ [b] } := by
  simp [receiveStep, hopen, hlegal, hroom]

theorem receiveStep_full {s : State} (hopen : s.init = true) (hlegal : s.params.legal = true)
    (hfull : s.params.rxDepth ≤ s.rxf.length) (b : Byte) : receiveStep b s = .next s := by
  simp [receiveStep, hopen, hlegal, Nat.not_lt.2 hfull]

/-! ### TK (42_transport.md R120) -/

theorem tickStep_zero {s : State} (h : s.tmr = 0x00000000#32) : tickStep s = s := if_pos h

theorem tickStep_running {s : State} (h : s.tmr ≠ 0x00000000#32) : tickStep s = { s with tmr := s.tmr - 0x00000001#32 } :=
  if_neg h

/-! ### The obligations -/

/-- Settles O35: LT sends the head of TXF, or has nothing to send. -/
theorem lineTransmitterSendsTheHead : Obligations.LineTransmitterSendsTheHead := by
  unfold Obligations.LineTransmitterSendsTheHead
  intro s hn
  rw [step_lineTx hn]
  exact ⟨fun b rest hopen hx => congrArg _ (lineTxStep_send (s := advance s) hopen hx),
    fun hidle => congrArg _ (lineTxStep_idle (s := advance s) hidle)⟩

/-- Settles O36: room in RXF, a full RXF and a closed session are the three cases of RD. -/
theorem receiveAppendsOrLosesTheByte : Obligations.ReceiveAppendsOrLosesTheByte := by
  unfold Obligations.ReceiveAppendsOrLosesTheByte
  intro b s hn
  rw [step_receive hn]
  exact ⟨fun hopen hlegal hroom => receiveStep_room (s := advance s) hopen hlegal hroom b,
    fun hopen hlegal hfull => receiveStep_full (s := advance s) hopen hlegal hfull b,
    fun hclosed => receiveStep_closed (s := advance s) hclosed b⟩

/-- Settles O37: a running timer is at least 1, so its decrement does not wrap (10_state.md R25). -/
theorem tickCountsDown : Obligations.TickCountsDown := by
  unfold Obligations.TickCountsDown
  intro s hn
  rw [step_tick hn]
  refine ⟨fun hzero => congrArg _ (tickStep_zero (s := advance s) hzero), fun hrun => ?_⟩
  have hless : (s.tmr - 0x00000001#32).toNat + 1 = s.tmr.toNat := by bv_omega
  exact ⟨_, congrArg _ (tickStep_running (s := advance s) hrun), rfl, hless⟩

end Sys2Proof.Machine

/-! The sequencer's steps, exactly (43_sequencer.md R123 to R141): what the machine does when S is next, state by state, and the complete
next state of each case. -/

namespace Sys2Proof.Machine

/-! ### The acceptance of a request (43_sequencer.md R123 to R125) -/

theorem step_hostWrite {n : RegNum} {v : Word} {s : State} (h : nextAgentStep s = .hostWrite n v) :
    step s = .next (hostWrite n v (advance s)) := by
  simp only [step, agentStep, h]

/-- A write to CMD is the one write that 43_sequencer.md R124 and R125 speak of. -/
theorem step_hostWriteCmd {v : Word} {s : State} (h : nextAgentStep s = .hostWrite 0x000#12 v) :
    step s = .next (hostWriteCmd v (advance s)) := step_hostWrite h

theorem step_accept {v : Word} {s : State} (h : nextAgentStep s = .hostWrite 0x000#12 v) (hidle : s.busy = false) :
    step s = .next (accept v (advance s)) := by
  rw [step_hostWriteCmd h, hostWriteCmd_idle (s := advance s) hidle]

/-- Settles O14: OP and ARG are the fields that `accept` latches. -/
theorem requestIsAccepted : Obligations.RequestIsAccepted := by
  unfold Obligations.RequestIsAccepted
  exact fun v s hn hidle => step_accept hn hidle

/-- Settles O15: a busy block answers a write to CMD with a host fault. -/
theorem requestWhileBusyIsAHostFault : Obligations.RequestWhileBusyIsAHostFault := by
  unfold Obligations.RequestWhileBusyIsAHostFault
  intro v s hn hbusy
  rw [step_hostWriteCmd hn, hostWriteCmd_busy (s := advance s) hbusy]
  rfl

/-! ### The step of S, by its state (43_sequencer.md R142) -/

theorem step_of_seqEnabled {d : Draw} {s : State} (hn : nextAgentStep s = .seq d) (he : seqEnabled s = true) :
    step s = seqBody (atSeq d s) := by
  rw [step_seq hn, seqStep_on (s := atSeq d s) he]

theorem step_of_not_seqEnabled {d : Draw} {s : State} (hn : nextAgentStep s = .seq d) (he : seqEnabled s = false) :
    step s = .next (atSeq d s) := by
  rw [step_seq hn, seqStep_off (s := atSeq d s) he]

/-- Settles O28: in each of the six cases S is not enabled. -/
theorem sequencerWaits : Obligations.SequencerWaits := by
  unfold Obligations.SequencerWaits
  intro d s hn hwait
  refine step_of_not_seqEnabled hn ?_
  rcases hwait with ⟨hs, hfull⟩ | ⟨hs, hx, ht⟩ | ⟨hs, ht⟩ | ⟨hs, hx, ht⟩ | hs | hrefused
  · simp [seqEnabled, hs, frameLen, Nat.not_le.2 hfull]
  · simp [seqEnabled, hs, hx, ht]
  · simp [seqEnabled, hs, ht]
  · simp [seqEnabled, hs, hx, ht]
  · simp [seqEnabled, hs]
  · simp [seqEnabled, hrefused]

section

variable {d : Draw} {s : State} (hn : nextAgentStep s = .seq d) (hr : s.refused = false)

include hn hr

theorem step_in_dispatch (hs : s.state = .dispatch) : step s = stepDispatch (atSeq d s) := by
  rw [step_of_seqEnabled hn (by simp [seqEnabled, hr, hs])]
  simp only [seqBody, atSeq_state, hs]

theorem step_in_encode (hs : s.state = .encode) : step s = stepEncode (atSeq d s) := by
  rw [step_of_seqEnabled hn (by simp [seqEnabled, hr, hs])]
  simp only [seqBody, atSeq_state, hs]

theorem step_in_write (hs : s.state = .write) (hroom : s.txf.length + 10 ≤ s.params.txDepth) :
    step s = stepWrite (atSeq d s) := by
  rw [step_of_seqEnabled hn (by simp [seqEnabled, hr, hs, frameLen, hroom])]
  simp only [seqBody, atSeq_state, hs]

theorem step_in_drain (hs : s.state = .drain) (hready : s.txf = [] ∨ s.tmr = 0x00000000#32) :
    step s = stepDrain (atSeq d s) := by
  rw [step_of_seqEnabled hn (by simp [seqEnabled, hr, hs, hready])]
  simp only [seqBody, atSeq_state, hs]

theorem step_in_flush (hs : s.state = .flush) : step s = stepFlush (atSeq d s) := by
  rw [step_of_seqEnabled hn (by simp [seqEnabled, hr, hs])]
  simp only [seqBody, atSeq_state, hs]

theorem step_in_settle (hs : s.state = .settle) (ht : s.tmr = 0x00000000#32) : step s = stepSettle (atSeq d s) := by
  rw [step_of_seqEnabled hn (by simp [seqEnabled, hr, hs, ht])]
  simp only [seqBody, atSeq_state, hs]

theorem step_in_read (hs : s.state = .read) (hready : s.rxf ≠ [] ∨ s.tmr = 0x00000000#32) :
    step s = stepRead (atSeq d s) := by
  rw [step_of_seqEnabled hn (by simp [seqEnabled, hr, hs, hready])]
  simp only [seqBody, atSeq_state, hs]

theorem step_in_check (hs : s.state = .check) : step s = stepCheck (atSeq d s) := by
  rw [step_of_seqEnabled hn (by simp [seqEnabled, hr, hs])]
  simp only [seqBody, atSeq_state, hs]

theorem step_in_fallback (hs : s.state = .fallback) : step s = stepFallback (atSeq d s) := by
  rw [step_of_seqEnabled hn (by simp [seqEnabled, hr, hs])]
  simp only [seqBody, atSeq_state, hs]

end

/-! ### DISPATCH and ENCODE (43_sequencer.md R127, R128, R134) -/

theorem stepDispatch_ok {s : State} {i : Instr} (h : fetchRequest s = .ok i) : stepDispatch s = exec i s := by
  simp only [stepDispatch, h]

theorem stepDispatch_error {s : State} {e : DecodeError} (h : fetchRequest s = .error e) :
    stepDispatch s = .next (refuse s) := by
  simp only [stepDispatch, h]

theorem stepEncode_some {s : State} {i : Instr} (h : fetchFrame s = some i) : stepEncode s = exec i s := by
  simp only [stepEncode, h]

theorem fetchFrame_command {s : State} {k : Kind} (hop : s.opL = 0x3#4) (harg : s.argL = kindCode k) :
    fetchFrame s = some (commandFrameOf k) := by
  simp [fetchFrame, hop, harg]

theorem fetchFrame_query {s : State} (hop : s.opL ≠ 0x3#4) : fetchFrame s = some .queryFrame := if_neg hop

/-- Settles O16: the fetch of each state names the instruction. -/
theorem stepRunsTheDecodedInstruction : Obligations.StepRunsTheDecodedInstruction := by
  unfold Obligations.StepRunsTheDecodedInstruction
  intro d s hn hr
  refine ⟨fun i hs hi => ?_, fun k hs hop harg => ?_, fun hs hop => ?_⟩
  · rw [step_in_dispatch hn hr hs, stepDispatch_ok (s := atSeq d s) hi]
  · rw [step_in_encode hn hr hs, stepEncode_some (s := atSeq d s) (fetchFrame_command hop harg)]
  · rw [step_in_encode hn hr hs, stepEncode_some (s := atSeq d s) (fetchFrame_query hop)]

theorem exec_sendRaw_zero (s : State) : exec (.sendRaw 0) s = .next (finish false .invalidArgument s) := rfl

theorem exec_sendRaw_of_ne_zero {len : Nat} (h : len ≠ 0) (s : State) : exec (.sendRaw len) s = .next (refuse s) :=
  congrArg _ (if_neg h)

theorem kindCode_mem (k : Kind) :
    kindCode k ∈ [0x11#8, 0x12#8, 0x13#8, 0x21#8, 0x22#8, 0x23#8, 0x31#8, 0x32#8, 0x33#8, 0x60#8] := by
  cases k <;> decide

/-- Settles O17: of the requests that decode, only a SEND_RAW with a nonzero ARG is among the four cases, and its meaning is to refuse. -/
theorem meaninglessRequestIsRefused : Obligations.MeaninglessRequestIsRefused := by
  unfold Obligations.MeaninglessRequestIsRefused
  intro d s hn hs hr hbad
  rw [step_in_dispatch hn hr hs]
  cases hf : decodeOpArg s.opL s.argL with
  | error e => exact stepDispatch_error (s := atSeq d s) hf
  | ok i =>
    rw [stepDispatch_ok (s := atSeq d s) hf]
    rcases decodeOpArg_cases hf with ⟨hop, harg, -⟩ | ⟨hop, harg, -⟩ | ⟨k, hop, harg, -⟩ | ⟨hop, harg, -⟩ | ⟨hop, rfl⟩
    · simp [hop, harg] at hbad
    · simp [hop, harg] at hbad
    · have hmem := kindCode_mem k
      simp only [hop, harg] at hbad
      simp [hmem] at hbad
    · simp [hop, harg] at hbad
    · have harg : s.argL ≠ 0x00#8 := by simpa [hop] using hbad
      exact exec_sendRaw_of_ne_zero (fun h0 => harg (BitVec.eq_of_toNat_eq h0)) _

/-! ### The requests (43_sequencer.md R129 to R133) -/

/-- Settles O18: with the session closed and the driver willing, `open` succeeds. -/
theorem initOpensTheSession : Obligations.InitOpensTheSession := by
  unfold Obligations.InitOpensTheSession
  intro s hclosed hdrv
  rcases exec_init_cases s with ⟨hopen, -⟩ | ⟨-, hfail, -⟩ | ⟨-, -, he⟩
  · simp [hclosed] at hopen
  · simp [hdrv] at hfail
  · exact he

/-- Settles O19, by the two failures of `open`. -/
theorem initFailsAlreadyOpenOrDriverError : Obligations.InitFailsAlreadyOpenOrDriverError := by
  unfold Obligations.InitFailsAlreadyOpenOrDriverError
  intro s
  rcases exec_init_cases s with ⟨hopen, he⟩ | ⟨hclosed, hfail, he⟩ | ⟨hclosed, hok, -⟩
  · exact ⟨fun _ => he, fun hclosed => by simp [hopen] at hclosed⟩
  · exact ⟨fun hopen => by simp [hclosed] at hopen, fun _ _ => he⟩
  · exact ⟨fun hopen => by simp [hclosed] at hopen, fun _ hfail => by simp [hok] at hfail⟩

/-- Settles O20, by the state of the session. -/
theorem deinitClosesTheSession : Obligations.DeinitClosesTheSession := by
  unfold Obligations.DeinitClosesTheSession
  intro s
  rcases exec_deinit_cases s with ⟨hopen, he⟩ | ⟨hclosed, he⟩
  · exact ⟨fun _ => he, fun hclosed => by simp [hopen] at hclosed⟩
  · exact ⟨fun hopen => by simp [hclosed] at hopen, fun _ => he⟩

theorem exec_startsExchange_open {i : Instr} (hi : startsExchange i = true) {s : State} (h : s.init = true) :
    exec i s = .next (goTo .encode s) := by
  rw [exec_startsExchange hi, if_pos h]

theorem exec_startsExchange_closed {i : Instr} (hi : startsExchange i = true) {s : State} (h : s.init = false) :
    exec i s = .next (finish false .notOpen s) := by
  rw [exec_startsExchange hi, if_neg (by simp [h])]

/-- The ten SEND_COMMANDs and QUERY_DEVICES. -/
theorem startsExchange_of_mem {i : Instr} (h : i ∈ allKinds.map sendCommandOf ++ [.queryDevices]) : startsExchange i = true := by
  rcases List.mem_append.1 h with h | h
  · obtain ⟨k, -, rfl⟩ := List.mem_map.1 h
    exact startsExchange_sendCommandOf k
  · rw [List.mem_singleton.1 h]
    rfl

/-- Settles O21: these requests differ only in the frame that ENCODE makes. -/
theorem commandsAndQueryStartTheExchange : Obligations.CommandsAndQueryStartTheExchange := by
  unfold Obligations.CommandsAndQueryStartTheExchange
  exact fun s hopen i hi => exec_startsExchange_open (startsExchange_of_mem hi) hopen

/-- Settles O22: the session is tested before anything is done. -/
theorem commandsAndQueryNeedAnOpenSession : Obligations.CommandsAndQueryNeedAnOpenSession := by
  unfold Obligations.CommandsAndQueryNeedAnOpenSession
  exact fun s hclosed i hi => exec_startsExchange_closed (startsExchange_of_mem hi) hclosed

/-- Settles O23, by the length. -/
theorem sendRawIsInvalidOrRefused : Obligations.SendRawIsInvalidOrRefused := by
  unfold Obligations.SendRawIsInvalidOrRefused
  refine fun len s => ⟨?_, fun hlen => exec_sendRaw_of_ne_zero hlen s⟩
  rintro rfl
  exact exec_sendRaw_zero s

/-! ### WRITE (43_sequencer.md R135) -/

theorem stepWrite_full {s : State} (hlegal : s.params.legal = true) (hopen : s.init = true) (hdraw : s.draw.wr = .ok 10) :
    stepWrite s = .next { s with
      txf := s.txf ++ s.frame.toList, tmr := ticksOf s.params.drainTimeoutMs s, state := .drain } := by
  have htake : s.frame.toList.take 10 = s.frame.toList := List.take_of_length_le (by simp)
  simp [stepWrite, hlegal, transportWrite_ok hopen hdraw, frameLen, queueFrame, htake]

theorem stepWrite_short {s : State} (hlegal : s.params.legal = true) (hopen : s.init = true) {n : Fin 11}
    (hdraw : s.draw.wr = .ok n) (hn : n.val < 10) :
    stepWrite s = .next (finish false .partialWrite (queueFrame n.val s)) := by
  have hne : ¬ n.val = 10 := by omega
  simp [stepWrite, hlegal, transportWrite_ok hopen hdraw, frameLen, hne]

theorem stepWrite_failed {s : State} (hlegal : s.params.legal = true) (hopen : s.init = true) {j : Fin 11}
    (hdraw : s.draw.wr = .err j) : stepWrite s = .next (finish false .transportError (queueFrame j.val s)) := by
  simp [stepWrite, hlegal, transportWrite_err hopen hdraw]

/-- Settles O26: the whole frame is queued, and DRAIN_TICKS fits in TMR under legal parameters. -/
theorem fullWriteQueuesTheFrame : Obligations.FullWriteQueuesTheFrame := by
  unfold Obligations.FullWriteQueuesTheFrame
  intro d s hn hs hr hopen hlegal hroom hdraw
  rw [step_in_write hn hr hs hroom]
  exact ⟨stepWrite_full (s := atSeq d s) hlegal hopen hdraw, ticksOf_toNat hlegal (.inr le_rfl)⟩

/-- Settles O27: the draw decides the code; either way the first bytes of FRAME are queued. -/
theorem shortOrFailedWriteEndsTheRequest : Obligations.ShortOrFailedWriteEndsTheRequest := by
  unfold Obligations.ShortOrFailedWriteEndsTheRequest
  intro d n s hn hs hr hopen hlegal hroom
  rw [step_in_write hn hr hs hroom]
  exact ⟨fun hdraw hlt => stepWrite_short (s := atSeq d s) hlegal hopen hdraw hlt,
    fun hdraw => stepWrite_failed (s := atSeq d s) hlegal hopen hdraw⟩

/-! ### DRAIN (43_sequencer.md R136) -/

/-- What follows the drain wait: a command has ended, a query goes on. -/
def afterDrain (s : State) : State := if s.opL = 0x3#4 then finish true .noError s else goTo .flush s

theorem afterDrain_command {s : State} (h : s.opL = 0x3#4) : afterDrain s = finish true .noError s := if_pos h

theorem afterDrain_query {s : State} (h : s.opL = 0x4#4) : afterDrain s = goTo .flush s := if_neg (by simp [h])

theorem stepDrain_drained {s : State} (hopen : s.init = true) (hx : s.txf = []) : stepDrain s = .next (afterDrain s) := by
  simp [stepDrain, afterDrain, transportDrained_open hopen, hx]

theorem stepDrain_timedOut {s : State} (hopen : s.init = true) (hx : s.txf ≠ []) :
    stepDrain s = .next (afterDrain { s with txto := true }) := by
  simp [stepDrain, afterDrain, transportDrained_open hopen, hx]

/-- Settles O29: the end of the drain wait, in time or not, is the end of a command. -/
theorem drainEndsACommand : Obligations.DrainEndsACommand := by
  unfold Obligations.DrainEndsACommand
  intro d s hn hs hr hopen hop
  refine ⟨fun hx => ?_, fun hx ht => ?_⟩
  · rw [step_in_drain hn hr hs (.inl hx), stepDrain_drained (s := atSeq d s) hopen hx]
    exact congrArg Host.Outcome.next (afterDrain_command (s := atSeq d s) hop)
  · rw [step_in_drain hn hr hs (.inr ht), stepDrain_timedOut (s := atSeq d s) hopen hx]
    exact congrArg Host.Outcome.next (afterDrain_command (s := { atSeq d s with txto := true }) hop)

/-! ### FLUSH and SETTLE (43_sequencer.md R137, R138) -/

theorem stepFlush_open {s : State} (hlegal : s.params.legal = true) (hopen : s.init = true) :
    stepFlush s = .next { s with rxf := [], tmr := ticksOf s.cfgSettleMs.toNat s, state := .settle } := by
  simp [stepFlush, hlegal, transportFlush_open hopen, ticksOf]

theorem stepSettle_legal {s : State} (hlegal : s.params.legal = true) :
    stepSettle s = .next { s with tmr := ticksOf readTimeoutMs s, state := .read } := withLegalParams_legal hlegal _

/-- A settle delay has at most 16 bits, so it fits in TMR under legal parameters (10_state.md R25). -/
theorem settleTicks_toNat {s : State} (hlegal : s.params.legal = true) :
    (ticksOf s.cfgSettleMs.toNat s).toNat = s.cfgSettleMs.toNat * s.params.ticksPerMs :=
  ticksOf_toNat hlegal (.inl (Nat.le_of_lt_succ s.cfgSettleMs.isLt))

/-- Settles O30: the end of a query's drain wait, and the flush after it. -/
theorem drainAndFlushOfAQuery : Obligations.DrainAndFlushOfAQuery := by
  unfold Obligations.DrainAndFlushOfAQuery
  intro d s hn hr hopen
  refine ⟨fun hs hop hx => ?_, fun hs hop hx ht => ?_, fun hs hlegal => ⟨?_, settleTicks_toNat hlegal⟩⟩
  · rw [step_in_drain hn hr hs (.inl hx), stepDrain_drained (s := atSeq d s) hopen hx]
    exact congrArg Host.Outcome.next (afterDrain_query (s := atSeq d s) hop)
  · rw [step_in_drain hn hr hs (.inr ht), stepDrain_timedOut (s := atSeq d s) hopen hx]
    exact congrArg Host.Outcome.next (afterDrain_query (s := { atSeq d s with txto := true }) hop)
  · rw [step_in_flush hn hr hs]
    exact stepFlush_open (s := atSeq d s) hlegal hopen

/-- Settles O31: READ_TICKS is within the constraint of 10_state.md R25. -/
theorem settleStartsTheTimedRead : Obligations.SettleStartsTheTimedRead := by
  unfold Obligations.SettleStartsTheTimedRead
  intro d s hn hs hr hlegal ht
  rw [step_in_settle hn hr hs ht]
  exact ⟨stepSettle_legal (s := atSeq d s) hlegal, ticksOf_toNat hlegal (.inl (by decide))⟩

/-! ### READ, CHECK and FALLBACK (43_sequencer.md R139 to R141) -/

/-- The end of a query that took bytes: the first 256 of RXF are the response, stored as `m` (43_sequencer.md R139, R141). -/
def captured (m : Memory) (s : State) : State :=
  finish true .noError { dropReceived 256 s with respBuf := m, respLen := BitVec.ofNat 9 (s.rxf.take 256).length }

theorem stepRead_takes {s : State} (hopen : s.init = true) (hdraw : s.draw.rd = .rdOk) (hx : s.rxf ≠ []) :
    ∃ m, memWriteFrom 0 (s.rxf.take 256) s.respBuf = some m ∧ stepRead s = .next (captured m s) := by
  obtain ⟨t, ht⟩ := stepRead_total hopen
  rcases stepRead_next ht with ⟨hclosed, -⟩ | ⟨-, hnone, -⟩ | ⟨-, -, -, m, hm, rfl⟩
  · simp [hopen] at hclosed
  · simp [hdraw, hx] at hnone
  · exact ⟨m, hm, ht⟩

theorem stepFallback_takes {s : State} (hopen : s.init = true) (hdraw : s.draw.rd = .rdOk) (hx : s.rxf ≠ []) :
    ∃ m, memWriteFrom 0 (s.rxf.take 256) s.respBuf = some m ∧ stepFallback s = .next (captured m s) := by
  obtain ⟨t, ht⟩ := stepFallback_total hopen
  rcases stepFallback_next ht with ⟨hclosed, -⟩ | ⟨-, hnone, -⟩ | ⟨-, -, -, m, hm, rfl⟩
  · simp [hopen] at hclosed
  · simp [hdraw, hx] at hnone
  · exact ⟨m, hm, ht⟩

theorem stepRead_none {s : State} (hopen : s.init = true) (hnone : s.rxf = [] ∨ s.draw.rd = .rdErr) :
    stepRead s = .next (goTo .check s) := by
  obtain ⟨t, ht⟩ := stepRead_total hopen
  rcases stepRead_next ht with ⟨hclosed, -⟩ | ⟨-, -, rfl⟩ | ⟨-, hx, hdraw, -⟩
  · simp [hopen] at hclosed
  · exact ht
  · simp [hdraw, hx] at hnone

theorem stepFallback_none {s : State} (hopen : s.init = true) (hnone : s.rxf = [] ∨ s.draw.rd = .rdErr) :
    stepFallback s = .next (finish false .noResponse s) := by
  obtain ⟨t, ht⟩ := stepFallback_total hopen
  rcases stepFallback_next ht with ⟨hclosed, -⟩ | ⟨-, -, rfl⟩ | ⟨-, hx, hdraw, -⟩
  · simp [hopen] at hclosed
  · exact ht
  · simp [hdraw, hx] at hnone

theorem stepCheck_some {s : State} (hopen : s.init = true) (hx : s.rxf ≠ []) : stepCheck s = .next (goTo .fallback s) := by
  simp [stepCheck, transportBuffered_open hopen, List.length_pos_iff, hx]

theorem stepCheck_none {s : State} (hopen : s.init = true) (hx : s.rxf = []) :
    stepCheck s = .next (finish false .noResponse s) := by
  simp [stepCheck, transportBuffered_open hopen, hx]

/-- A capture in the numbers of 42_transport.md R113: with `n` the smaller of RXF's length and 256, RXF loses its first `n` bytes. -/
theorem captured_eq (m : Memory) (s : State) :
    captured m s = finish true .noError { s with
      respBuf := m
      respLen := BitVec.ofNat 9 (min s.rxf.length 256)
      rxf := s.rxf.drop (min s.rxf.length 256) } := by
  have hdrop : s.rxf.drop 256 = s.rxf.drop (min s.rxf.length 256) := by
    rcases Nat.le_total s.rxf.length 256 with h | h
    · rw [min_eq_left h, List.drop_eq_nil_of_le h, List.drop_length]
    · rw [min_eq_right h]
  have hlen : (s.rxf.take 256).length = min s.rxf.length 256 := by rw [List.length_take, min_comm]
  rw [captured, hlen, dropReceived, hdrop]

/-- The stored bytes are read back in order, and every index behind them reads as before. -/
theorem cellRead_captured {s : State} {m : Memory} (hm : memWriteFrom 0 (s.rxf.take 256) s.respBuf = some m) (i : Nat) :
    cellRead m i = if i < min s.rxf.length 256 then s.rxf[i]? else cellRead s.respBuf i := by
  rw [cellRead_memWriteFrom hm i, List.length_take, Nat.zero_add, min_comm]
  simp only [Nat.zero_le, true_and, Nat.sub_zero]
  split
  · next hi => rw [List.getElem?_take_of_lt (by omega)]
  · rfl

/-- READ and FALLBACK take the queued bytes alike. -/
theorem step_takes {d : Draw} {s : State} (hn : nextAgentStep s = .seq d) (hr : s.refused = false)
    (hs : s.state = .read ∨ s.state = .fallback) (hopen : s.init = true) (hdraw : d.rd = .rdOk) (hx : s.rxf ≠ []) :
    ∃ m, memWriteFrom 0 (s.rxf.take 256) s.respBuf = some m ∧ step s = .next (captured m (atSeq d s)) := by
  rcases hs with hs | hs
  · rw [step_in_read hn hr hs (.inl hx)]
    exact stepRead_takes (s := atSeq d s) hopen hdraw hx
  · rw [step_in_fallback hn hr hs]
    exact stepFallback_takes (s := atSeq d s) hopen hdraw hx

/-- Settles O32: at most 256 bytes are taken, so their number fits in RESP_LEN and each has its index. -/
theorem readCapturesTheQueuedBytes : Obligations.ReadCapturesTheQueuedBytes := by
  unfold Obligations.ReadCapturesTheQueuedBytes
  intro d s hn hs hr hopen hdraw hx
  obtain ⟨m, hm, hstep⟩ := step_takes hn hr hs hopen hdraw hx
  refine ⟨m, ?_, Nat.mod_eq_of_lt (by omega), fun i hi => ?_, fun i hi => ?_⟩
  · rw [hstep, captured_eq]
    rfl
  · rw [cellRead_captured hm, if_pos hi]
  · rw [cellRead_captured hm, if_neg (Nat.not_lt.2 hi)]

/-- Settles O33, state by state. -/
theorem fallbackPathOfAQuery : Obligations.FallbackPathOfAQuery := by
  unfold Obligations.FallbackPathOfAQuery
  intro d s hn hr hopen
  refine ⟨fun hs hnone => ?_, fun hs hx => ?_, ?_⟩
  · have hready : s.rxf ≠ [] ∨ s.tmr = 0x00000000#32 := hnone.elim (fun h => .inr h.2) And.right
    rw [step_in_read hn hr hs hready]
    exact stepRead_none (s := atSeq d s) hopen (hnone.imp And.left And.left)
  · rw [step_in_check hn hr hs]
    exact stepCheck_some (s := atSeq d s) hopen hx
  · rintro (⟨hs, hx⟩ | ⟨hs, hnone⟩)
    · rw [step_in_check hn hr hs]
      exact stepCheck_none (s := atSeq d s) hopen hx
    · rw [step_in_fallback hn hr hs]
      exact stepFallback_none (s := atSeq d s) hopen hnone

end Sys2Proof.Machine

/-! What stays and what moves: the state an instruction leaves alone (43_sequencer.md R126 to R134), the edges its FSM state moves
along and how many are left (R142, R145), the block that has refused (R128), and runs from reset (R147). -/

namespace Sys2Proof.Machine

/-! ### The frame of an instruction (43_sequencer.md R126 to R134) -/

/-- The instructions with a payload are the frames (30_encoding.md R77). -/
theorem payloadOf_ne_none_of_frame {i : Instr} {f : List Byte} (h : encode i = .frame f) : payloadOf i ≠ none := by
  cases i <;> first | (cases h; done) | exact Option.some_ne_none _

theorem payloadOf_eq_none_of_request {i : Instr} {w : Word} (h : encode i = .request w) : payloadOf i = none := by
  cases i <;> first | rfl | cases h

theorem payloadOf_eq_none_of_startsExchange {i : Instr} (h : startsExchange i = true) : payloadOf i = none := by
  cases i <;> first | rfl | cases h

/-- Settles O25, by what an instruction can do: open or close the session, end the request, start an exchange, refuse, or encode a
frame. -/
theorem instructionsLeaveTheRestUnchanged : Obligations.InstructionsLeaveTheRestUnchanged := by
  unfold Obligations.InstructionsLeaveTheRestUnchanged
  intro i s t h
  have hframe : (∃ f, encode i = .frame f) → payloadOf i ≠ none := fun ⟨_, hf⟩ => payloadOf_ne_none_of_frame hf
  have hrequest : (∃ w, encode i = .request w) → payloadOf i = none := fun ⟨_, hw⟩ => payloadOf_eq_none_of_request hw
  rcases exec_next h with ⟨rfl, -, -, rfl⟩ | ⟨rfl, -, rfl⟩ | ⟨hnone, e, -, rfl⟩ | ⟨hx, -, rfl⟩ | ⟨len, -, rfl, rfl⟩ | ⟨p, hp, rfl⟩
  · exact ⟨by simp [openSession], absurd rfl, absurd rfl, fun _ => ⟨rfl, rfl⟩, fun hf => absurd rfl (hframe hf), fun _ => rfl⟩
  · exact ⟨by simp [closeSession], fun _ => ⟨rfl, rfl, rfl, rfl⟩, fun _ => absurd rfl, fun _ => ⟨rfl, rfl⟩,
      fun hf => absurd rfl (hframe hf), fun _ => rfl⟩
  · exact ⟨by simp, by simp, by simp, fun _ => ⟨rfl, rfl⟩, fun hf => absurd hnone (hframe hf), fun _ => rfl⟩
  · have hnone := payloadOf_eq_none_of_startsExchange hx
    exact ⟨by simp, by simp, by simp, fun _ => ⟨rfl, rfl⟩, fun hf => absurd hnone (hframe hf), fun _ => rfl⟩
  · exact ⟨by simp, by simp, by simp, fun _ => ⟨rfl, rfl⟩, fun hf => absurd rfl (hframe hf), fun hraw => absurd rfl (hraw len)⟩
  · exact ⟨by simp, by simp, by simp, fun hw => absurd (hrequest hw) (by simp [hp]), by simp, by simp⟩

/-! ### The edges of the FSM (43_sequencer.md R142) -/

theorem idle_mem_seqEdges_dispatch (op : BitVec 4) : SeqState.idle ∈ seqEdges op .dispatch := by
  simp only [seqEdges]
  split <;> decide

theorem encode_mem_seqEdges_dispatch {op : BitVec 4} (h : op = 0x3#4 ∨ op = 0x4#4) : SeqState.encode ∈ seqEdges op .dispatch := by
  simp [seqEdges, h]

/-- An edge that moves STATE brings the exchange nearer to its end: the FSM has no loop (43_sequencer.md R145). -/
theorem stepsLeft_lt_of_edge {op : BitVec 4} {p q : SeqState} (h : q ∈ seqEdges op p) (hne : q ≠ p) : stepsLeft q < stepsLeft p := by
  have hlower : ∀ r ∈ seqEdges op p, r ≠ p → stepsLeft r < stepsLeft p := by
    cases p with
    | dispatch | drain => simp only [seqEdges]; split <;> decide
    | _ => simp only [seqEdges]; decide
  exact hlower q h hne

theorem stepsLeft_le (q : SeqState) : stepsLeft q ≤ 9 := by cases q <;> decide

/-- S has moved STATE along an edge of its operation. -/
def MovesAlongEdge (s t : State) : Prop := t.state ∈ seqEdges s.opL s.state ∧ t.state ≠ s.state

theorem stepDispatch_edge {s t : State} (hs : s.state = .dispatch) (h : stepDispatch s = .next t) :
    t = refuse s ∨ MovesAlongEdge s t := by
  have hended : ∀ {ok : Bool} {e : ErrCode} {u : State}, MovesAlongEdge s (finish ok e u) := by
    simp [MovesAlongEdge, hs, idle_mem_seqEdges_dispatch]
  rcases stepDispatch_next h with ⟨i, hi, he⟩ | ⟨e, -, rfl⟩
  · obtain ⟨hop, -, -, hpay⟩ := decodeOpArg_ok hi
    rcases exec_next he with ⟨-, -, -, rfl⟩ | ⟨-, -, rfl⟩ | ⟨-, e, -, rfl⟩ | ⟨hx, -, rfl⟩ | ⟨_, -, -, rfl⟩ | ⟨p, hp, -⟩
    · exact .inr hended
    · exact .inr hended
    · exact .inr hended
    · have hedge := encode_mem_seqEdges_dispatch ((hop hx).imp And.left And.left)
      exact .inr (by simp [MovesAlongEdge, hs, hedge])
    · exact .inl rfl
    · simp [hpay] at hp
  · exact .inl rfl

/-- Every step that S takes in a running request either refuses it or moves STATE along an edge. -/
theorem seqBody_edge {s t : State} (hinv : Inv s) (hidle : s.state ≠ .idle) (h : seqBody s = .next t) :
    t = refuse s ∨ MovesAlongEdge s t := by
  have hopen := hinv.exchange_open
  unfold seqBody at h
  cases hs : s.state <;> simp only [hs] at h
  case idle => exact absurd hs hidle
  case dispatch => exact stepDispatch_edge hs h
  all_goals
    right
    unfold MovesAlongEdge
    simp only [hs, inExchange, forall_const] at hopen ⊢
  case encode =>
    obtain ⟨i, hi, he⟩ := stepEncode_next h
    obtain ⟨p, hp, -⟩ := latchedFrame_of_fetchFrame hi
    rw [exec_payload hp] at he
    cases he
    simp [seqEdges]
  case write => obtain ⟨-, ⟨-, rfl⟩ | ⟨-, -, rfl⟩ | ⟨-, -, _, _, -, -, rfl⟩⟩ := stepWrite_next h <;> simp [seqEdges]
  case drain =>
    rcases stepDrain_next h with ⟨hclosed, -⟩ | ⟨-, u, -, ⟨hop, rfl⟩ | ⟨hop, rfl⟩⟩
    · simp [hopen] at hclosed
    · simp [seqEdges, hop]
    · simp [seqEdges, hop]
  case flush =>
    obtain ⟨-, ⟨hclosed, -⟩ | ⟨-, rfl⟩⟩ := stepFlush_next h
    · simp [hopen] at hclosed
    · simp [seqEdges]
  case settle => obtain ⟨-, rfl⟩ := stepSettle_next h; simp [seqEdges]
  case read => rcases stepRead_next h with ⟨-, rfl⟩ | ⟨-, -, rfl⟩ | ⟨-, -, -, _, -, rfl⟩ <;> simp [seqEdges]
  case check => rcases stepCheck_next h with ⟨-, rfl⟩ | ⟨-, -, rfl⟩ | ⟨-, -, rfl⟩ <;> simp [seqEdges]
  case fallback => rcases stepFallback_next h with ⟨-, rfl⟩ | ⟨-, -, rfl⟩ | ⟨-, -, -, _, -, rfl⟩ <;> simp [seqEdges]

/-- A step of S in a state of the block: it waits, refuses, or moves STATE along an edge. -/
theorem seqStep_edge {s t : State} (hinv : Inv s) (h : seqStep s = .next t) :
    (seqEnabled s = false ∧ t = s) ∨ t = refuse s ∨ MovesAlongEdge s t := by
  rcases seqStep_next h with hwait | ⟨he, hbody⟩
  · exact .inl hwait
  · have hrun := hinv.running he
    have hidle : s.state ≠ .idle := fun hs => by simpa [hrun.busy] using hinv.idle_busy.1 hs
    exact .inr (seqBody_edge hinv hidle hbody)

/-! ### What the other agents do to a request -/

/-- STATE and the request that it belongs to stay as they are. -/
def SameRequest (s t : State) : Prop := requestOf t = requestOf s ∧ t.state = s.state

theorem Waits.sameRequest {s t : State} (h : Waits s t) : SameRequest s t := ⟨h.request_eq, h.state_eq⟩

theorem hostWrite_request (n : RegNum) (v : Word) (s : State) :
    SameRequest s (hostWrite n v s) ∨ (n = 0x000#12 ∧ s.busy = false ∧ (hostWrite n v s).state = .dispatch) := by
  rcases hostWrite_cases n v s with ⟨hn, hidle, he⟩ | ⟨-, -, he⟩ | ⟨_, _, _, _, _, he⟩ <;> rw [he]
  · exact .inr ⟨hn, hidle, rfl⟩
  · exact .inl ⟨rfl, rfl⟩
  · exact .inl ⟨rfl, rfl⟩

theorem hostProgramStep_request (s : State) :
    SameRequest s (hostProgramStep s) ∨
    ((∃ v, s.hostProg[s.hostPc]? = some (.write 0x000#12 v)) ∧ s.busy = false ∧ (hostProgramStep s).state = .dispatch) := by
  obtain ⟨u, pc, v, rfl | ⟨n, w, hw, rfl⟩, he⟩ := hostProgramStep_cases s <;> rw [he]
  · exact .inl ⟨rfl, rfl⟩
  · rcases hostWrite_request n w s with hsame | ⟨rfl, hidle, hs⟩
    · exact .inl hsame
    · exact .inr ⟨⟨w, hw⟩, hidle, hs⟩

/-- Everything a step can be for the request: a step of S, no matter to it, the acceptance of one, or the reset input. -/
theorem step_request {s t : State} (h : step s = .next t) :
    (∃ d, nextAgentStep s = .seq d ∧ seqStep (atSeq d s) = .next t) ∨
    SameRequest s t ∨
    ((∃ v, hostWrites 0x000#12 v s) ∧ s.busy = false ∧ t.state = .dispatch) ∨
    (nextAgentStep s = .resetInput ∧ t.state = .idle) := by
  rcases step_next h with ⟨d, hn, hst⟩ | ⟨-, rfl⟩ | ⟨b, -, hst⟩ | ⟨-, rfl⟩ | ⟨n, v, hn, rfl⟩ | ⟨n, -, rfl⟩ | ⟨hn, rfl⟩ | ⟨hn, rfl⟩
  · exact .inl ⟨d, hn, hst⟩
  · exact .inr (.inl (waits_lineTxStep (advance s)).sameRequest)
  · rcases receiveStep_next hst with rfl | ⟨-, -, -, rfl⟩ <;> exact .inr (.inl ⟨rfl, rfl⟩)
  · exact .inr (.inl (waits_tickStep (advance s)).sameRequest)
  · rcases hostWrite_request n v (advance s) with hsame | ⟨rfl, hidle, hs⟩
    · exact .inr (.inl hsame)
    · exact .inr (.inr (.inl ⟨⟨v, .inl hn⟩, hidle, hs⟩))
  · exact .inr (.inl ⟨rfl, rfl⟩)
  · rcases hostProgramStep_request (advance s) with hsame | ⟨⟨v, hw⟩, hidle, hs⟩
    · exact .inr (.inl hsame)
    · exact .inr (.inr (.inl ⟨⟨v, .inr ⟨hn, hw⟩⟩, hidle, hs⟩))
  · exact .inr (.inr (.inr ⟨hn, rfl⟩))

/-! ### STATE, the steps left, and the block that has refused -/

theorem Inv.atSeq {s : State} (h : Inv s) (d : Draw) : Inv (atSeq d s) := { h with }

/-- Settles O47: S moves STATE along an edge, the host by the acceptance of a request alone. -/
theorem stateMovesAlongTheEdges : Obligations.StateMovesAlongTheEdges := by
  unfold Obligations.StateMovesAlongTheEdges
  intro s t hinv h
  rcases step_request h with ⟨d, hn, hst⟩ | ⟨-, hs⟩ | ⟨hw, hidle, hs⟩ | hreset
  · rcases seqStep_edge (hinv.atSeq d) hst with ⟨-, rfl⟩ | rfl | ⟨hedge, -⟩
    · exact .inl rfl
    · exact .inl rfl
    · exact .inr (.inl ⟨⟨d, hn⟩, hedge⟩)
  · exact .inl hs
  · exact .inr (.inr (.inl ⟨hw, hinv.idle_busy.2 hidle, hs⟩))
  · exact .inr (.inr (.inr hreset))

/-- While a request runs, no step leaves more steps to take. -/
theorem stepsLeft_le_of_busy {s t : State} (hinv : Inv s) (hbusy : s.busy = true) (h : step s = .next t) :
    stepsLeft t.state ≤ stepsLeft s.state := by
  rcases step_request h with ⟨d, -, hst⟩ | ⟨-, hs⟩ | ⟨-, hidle, -⟩ | ⟨-, hs⟩
  · rcases seqStep_edge (hinv.atSeq d) hst with ⟨-, rfl⟩ | rfl | ⟨hedge, hne⟩
    · exact le_rfl
    · exact le_rfl
    · exact (stepsLeft_lt_of_edge hedge hne).le
  · rw [hs]
  · simp [hbusy] at hidle
  · rw [hs]
    exact Nat.zero_le _

/-- Settles O48: every edge lowers the number of steps left, and an enabled step of S takes one or refuses. -/
theorem exchangeTakesAtMostNineSteps : Obligations.ExchangeTakesAtMostNineSteps := by
  unfold Obligations.ExchangeTakesAtMostNineSteps
  intro s t hinv h
  refine ⟨stepsLeft_le s.state, ?_, fun hbusy => stepsLeft_le_of_busy hinv hbusy h⟩
  rintro ⟨d, hn⟩ he
  rw [step_seq hn] at h
  rcases seqStep_edge (hinv.atSeq d) h with ⟨hoff, -⟩ | rfl | ⟨hedge, hne⟩
  · simp [he] at hoff
  · exact .inl rfl
  · exact .inr (stepsLeft_lt_of_edge hedge hne)

theorem Inv.busy_of_not_idle {s : State} (h : Inv s) (hs : s.state ≠ .idle) : s.busy = true :=
  Bool.of_not_eq_false (mt h.idle_busy.2 hs)

/-- A block that has refused is still busy (43_sequencer.md R128). -/
theorem Inv.busy_of_refused {s : State} (h : Inv s) (href : s.refused = true) : s.busy = true :=
  h.busy_of_not_idle (by rw [h.refused_at href]; decide)

/-- Settles O46: REFUSED is sticky and fixes the rest by the invariant; the request stays because S waits and a busy block accepts no
other. -/
theorem refusedBlockIsStuck : Obligations.RefusedBlockIsStuck := by
  unfold Obligations.RefusedBlockIsStuck
  intro s t hinv href h hreset
  have hinv' : Inv t := everyStepKeepsTheInvariant s t hinv h
  have href' : t.refused = true := (faultAndRefusedAreSticky s t h hreset).2 href
  have hlatched : t.opL = s.opL ∧ t.argL = s.argL := by
    rcases step_request h with ⟨d, -, hst⟩ | ⟨hsame, -⟩ | ⟨-, hidle, -⟩ | ⟨hn, -⟩
    · rw [seqStep_of_refused (s := atSeq d s) href] at hst
      cases hst
      exact ⟨rfl, rfl⟩
    · obtain ⟨-, -, -, -, hop, harg⟩ := requestOf_eq_iff.1 hsame
      exact ⟨hop, harg⟩
    · simp [hinv.busy_of_refused href] at hidle
    · exact absurd hn hreset
  exact ⟨href', hinv'.busy_of_refused href', hinv'.done_of_refused href', hinv'.refused_at href', hlatched⟩

/-! ### Runs -/

/-- A run that answers a state has answered one at its first step. -/
theorem core_run_succ_next {n : Nat} {s t : State} (h : Sys2Proof.core.run (n + 1) s = .next t) :
    ∃ u, step s = .next u ∧ Sys2Proof.core.run n u = .next t := by
  cases hs : step s with
  | next u => exact ⟨u, rfl, core_run_succ hs ▸ h⟩
  | fault r => simp [Host.Core.run, Sys2Proof.core, hs] at h
  | refused r => simp [Host.Core.run, Sys2Proof.core, hs] at h

theorem core_run_keeps_inv {n : Nat} {s t : State} (hinv : Inv s) (h : Sys2Proof.core.run n s = .next t) : Inv t := by
  induction n generalizing s with
  | zero =>
    cases h
    exact hinv
  | succ n ih =>
    obtain ⟨u, hstep, hrun⟩ := core_run_succ_next h
    exact ih (everyStepKeepsTheInvariant s u hinv hstep) hrun

/-- The invariant does not speak of the steps to come. -/
theorem Inv.withEnv {s : State} (h : Inv s) (env : List AgentStep) : Inv { s with env := env } := { h with }

/-- Settles O53: the invariant holds along the run, and by it a response belongs to a success. -/
theorem failuresShowNoResponse : Obligations.FailuresShowNoResponse := by
  unfold Obligations.FailuresShowNoResponse
  intro n env t h
  have hinv : Inv t := core_run_keeps_inv (Inv.withEnv resetMeetsTheInvariant env) h
  refine ⟨hinv, fun hfail => ?_⟩
  have hlen : t.respLen = 0#9 := by
    by_contra hne
    obtain ⟨-, hsuccess, -⟩ := hinv.resp_success hne
    simp [hfail] at hsuccess
  exact ⟨hlen, fun i => if_neg (by simp [hlen])⟩

end Sys2Proof.Machine

/-! An exchange on a healthy transport, from the acceptance of its request to its end (43_sequencer.md R143, R144). `Underway` says where the
exchange stands; each state of S takes it on by one step, and LT, RD and TK by one run each. -/

namespace Sys2Proof.Machine

theorem nextAgentStep_of_env {x : AgentStep} {e : List AgentStep} {s : State} (h : s.env = x :: e) : nextAgentStep s = x := by
  simp only [nextAgentStep, h]

theorem core_run_one {s t : State} (h : step s = .next t) : Sys2Proof.core.run 1 s = .next t := core_run_succ h

theorem core_run_trans {m n : Nat} {s t u : State} (hm : Sys2Proof.core.run m s = .next t) (hn : Sys2Proof.core.run n t = .next u) :
    Sys2Proof.core.run (m + n) s = .next u := (core_run_add hm).trans hn

/-- REFUSED is set in DISPATCH only (43_sequencer.md R128). -/
theorem Inv.not_refused {s : State} (h : Inv s) {p : SeqState} (hs : s.state = p) (hp : p ≠ .dispatch) : s.refused = false := by
  subst hs
  exact Bool.eq_false_iff.2 fun href => hp (h.refused_at href)

/-- Where the exchange of the request that `a` has accepted stands in `t`: S is in `q`, `wire` has been sent, `txf` and `rxf` are queued,
no wait has timed out, and `e` are the steps to come. -/
structure Underway (a : State) (q : SeqState) (wire txf rxf : List Byte) (e : List AgentStep) (t : State) : Prop where
  inv : Inv t
  request_eq : requestOf t = requestOf a
  settle_eq : t.cfgSettleMs = a.cfgSettleMs
  state_eq : t.state = q
  txto_eq : t.txto = false
  wireTx_eq : t.wireTx = wire
  txf_eq : t.txf = txf
  rxf_eq : t.rxf = rxf
  env_eq : t.env = e

/-- An idle block accepts a request (43_sequencer.md R125). -/
theorem underway_accept {v : Word} {e : List AgentStep} {s : State} (hinv : Inv s) (hidle : s.busy = false)
    (henv : s.env = .hostWrite 0x000#12 v :: e) :
    ∃ t, step s = .next t ∧ Underway (accept v s) .dispatch s.wireTx s.txf s.rxf e t := by
  have hstep := step_accept (nextAgentStep_of_env henv) hidle
  exact ⟨_, hstep, {
    inv := everyStepKeepsTheInvariant _ _ hinv hstep
    request_eq := rfl
    settle_eq := rfl
    state_eq := rfl
    txto_eq := rfl
    wireTx_eq := rfl
    txf_eq := rfl
    rxf_eq := rfl
    env_eq := by simp [henv] }⟩

section

variable {a t : State} {wire txf rxf : List Byte} {e : List AgentStep} {d : Draw}

theorem Underway.opL_eq {q : SeqState} (h : Underway a q wire txf rxf e t) : t.opL = a.opL := congrArg Request.opL h.request_eq

theorem Underway.argL_eq {q : SeqState} (h : Underway a q wire txf rxf e t) : t.argL = a.argL := congrArg Request.argL h.request_eq

theorem Underway.params_eq {q : SeqState} (h : Underway a q wire txf rxf e t) : t.params = a.params :=
  congrArg Request.params h.request_eq

/-- An exchange runs on an open session. -/
theorem Underway.init_eq {q : SeqState} (h : Underway a q wire txf rxf e t) (hq : inExchange q = true) : t.init = true :=
  h.inv.exchange_open (h.state_eq ▸ hq)

/-- After DISPATCH, S is next and not stopped by a refusal. -/
theorem Underway.seq_next {q : SeqState} (h : Underway a q wire txf rxf (.seq d :: e) t) (hq : q ≠ .dispatch) :
    nextAgentStep t = .seq d ∧ t.refused = false :=
  ⟨nextAgentStep_of_env h.env_eq, h.inv.not_refused h.state_eq hq⟩

/-! ### The transmission of the frame -/

theorem Underway.dispatch {i : Instr} (h : Underway a .dispatch wire txf rxf (.seq d :: e) t) (hr : a.refused = false)
    (hopen : a.init = true) (hi : fetchRequest a = .ok i) (hstart : startsExchange i = true) :
    ∃ u, step t = .next u ∧ Underway a .encode wire txf rxf e u := by
  have hr' : t.refused = false := (congrArg Request.refused h.request_eq).trans hr
  have hopen' : t.init = true := (congrArg Request.init h.request_eq).trans hopen
  have hi' : fetchRequest t = .ok i := by rw [← hi, fetchRequest, fetchRequest, h.opL_eq, h.argL_eq]
  have hstep : step t = .next (goTo .encode (atSeq d t)) := by
    rw [step_in_dispatch (nextAgentStep_of_env h.env_eq) hr' h.state_eq, stepDispatch_ok (s := atSeq d t) hi']
    exact exec_startsExchange_open (s := atSeq d t) hstart hopen'
  exact ⟨_, hstep, { h with
    inv := everyStepKeepsTheInvariant _ _ h.inv hstep
    state_eq := rfl
    env_eq := by simp [h.env_eq] }⟩

theorem Underway.encode (h : Underway a .encode wire txf rxf (.seq d :: e) t) :
    ∃ u, step t = .next u ∧ Underway a .write wire txf rxf e u := by
  obtain ⟨hn, hr⟩ := h.seq_next (by decide)
  obtain ⟨j, p, hj, hp⟩ := fetchFrame_of_exchange_op (h.inv.exchange_op (by rw [h.state_eq]; rfl))
  have hstep : step t = .next { atSeq d t with crc := crcSerial p.toList, frame := assemble p, state := .write } := by
    rw [step_in_encode hn hr h.state_eq, stepEncode_some (s := atSeq d t) hj, exec_payload hp]
  exact ⟨_, hstep, { h with
    inv := everyStepKeepsTheInvariant _ _ h.inv hstep
    state_eq := rfl
    env_eq := by simp [h.env_eq] }⟩

/-- With an empty queue there is room for the frame of the latched request, which FRAME holds by the invariant. -/
theorem Underway.write {f : Vector Byte 10} (h : Underway a .write wire [] rxf (.seq d :: e) t) (hdraw : d.wr = .ok 10)
    (hf : latchedFrame a = some f) : ∃ u, step t = .next u ∧ Underway a .drain wire f.toList rxf e u := by
  obtain ⟨hn, hr⟩ := h.seq_next (by decide)
  have hroom : t.txf.length + 10 ≤ t.params.txDepth := by
    obtain ⟨-, -, -, hdepth⟩ := (Params.legal_iff _).1 h.inv.legal
    simpa [h.txf_eq] using hdepth
  have hframe : t.frame = f := by
    have hlatched := h.inv.frame_latched (by rw [h.state_eq]; rfl) (by simp [h.state_eq])
    rw [latchedFrame, h.opL_eq, h.argL_eq] at hlatched
    exact Option.some.inj (hlatched.symm.trans hf)
  have hstep : step t = .next { atSeq d t with
      txf := t.txf ++ t.frame.toList, tmr := ticksOf t.params.drainTimeoutMs t, state := .drain } := by
    rw [step_in_write hn hr h.state_eq hroom]
    exact stepWrite_full (s := atSeq d t) h.inv.legal (h.init_eq rfl) hdraw
  exact ⟨_, hstep, { h with
    inv := everyStepKeepsTheInvariant _ _ h.inv hstep
    state_eq := rfl
    txf_eq := by simp [h.txf_eq, hframe]
    env_eq := by simp [h.env_eq] }⟩

/-- LT in a row sends the queued bytes in order (42_transport.md R118). -/
theorem Underway.run_lineTx {bs : List Byte} (h : Underway a .drain wire bs rxf (List.replicate bs.length .lineTx ++ e) t) :
    ∃ u : State, Sys2Proof.core.run bs.length t = .next u ∧ Underway a .drain (wire ++ bs) [] rxf e u := by
  induction bs generalizing t wire with
  | nil => exact ⟨t, rfl, by simpa using h⟩
  | cons b bs ih =>
    have hstep : step t = .next { advance t with txf := bs, wireTx := t.wireTx ++ [b] } := by
      rw [step_lineTx (nextAgentStep_of_env h.env_eq)]
      exact congrArg _ (lineTxStep_send (s := advance t) (h.init_eq rfl) h.txf_eq)
    obtain ⟨u, hrun, hu⟩ := ih (wire := wire ++ [b]) { h with
      inv := everyStepKeepsTheInvariant _ _ h.inv hstep
      wireTx_eq := by simp [h.wireTx_eq]
      txf_eq := rfl
      env_eq := by simp [h.env_eq] }
    exact ⟨u, (core_run_succ hstep).trans hrun, by simpa using hu⟩

end

/-- ACCEPT, DISPATCH, ENCODE, a full WRITE and ten steps of LT: the frame of every request that starts an exchange is sent whole
(43_sequencer.md R125, R131 to R135). -/
theorem core_run_sendFrame {v : Word} {i : Instr} {f : Vector Byte 10} {d₁ d₂ d₃ : Draw} {e : List AgentStep} {s : State}
    (hinv : Inv s) (hidle : s.busy = false) (hopen : s.init = true) (hx : s.txf = []) (hdraw : d₃.wr = .ok 10)
    (hi : decodeRequest v = .ok i) (hstart : startsExchange i = true) (hf : latchedFrame (accept v s) = some f)
    (henv : s.env = .hostWrite 0x000#12 v :: .seq d₁ :: .seq d₂ :: .seq d₃ :: (List.replicate 10 .lineTx ++ e)) :
    ∃ t : State, Sys2Proof.core.run 14 s = .next t ∧ Underway (accept v s) .drain (s.wireTx ++ f.toList) [] s.rxf e t := by
  have hr : s.refused = false := hinv.not_refused (hinv.idle_busy.2 hidle) (by decide)
  obtain ⟨s₁, h₁, hs₁⟩ := underway_accept hinv hidle henv
  rw [hx] at hs₁
  obtain ⟨s₂, h₂, hs₂⟩ := hs₁.dispatch hr hopen hi hstart
  obtain ⟨s₃, h₃, hs₃⟩ := hs₂.encode
  obtain ⟨s₄, h₄, hs₄⟩ := hs₃.write hdraw hf
  have hlen : f.toList.length = 10 := f.length_toList
  obtain ⟨t, hsent, ht⟩ := Underway.run_lineTx (bs := f.toList) (by rw [hlen]; exact hs₄)
  rw [hlen] at hsent
  refine ⟨t, ?_, ht⟩
  have hqueued : Sys2Proof.core.run 4 s = .next s₄ := by
    rw [core_run_succ h₁, core_run_succ h₂, core_run_succ h₃, core_run_one h₄]
  exact core_run_trans hqueued hsent

/-! ### The end of a command (43_sequencer.md R143) -/

theorem decodeRequest_sendCommandWord (k : Kind) : decodeRequest (sendCommandWord k) = .ok (sendCommandOf k) := by
  have hback := decodeOfEncodeIsTheInstruction (sendCommandOf k) (wellFormed_sendCommandOf k)
  rwa [encode_sendCommandOf] at hback

/-- The fields of a SEND_COMMAND word (30_encoding.md R70). -/
theorem requestOp_sendCommandWord (k : Kind) : requestOp (sendCommandWord k) = 0x3#4 := requestOp_word 0x3#4 (kindCode k)

theorem requestArg_sendCommandWord (k : Kind) : requestArg (sendCommandWord k) = kindCode k := requestArg_word 0x3#4 (kindCode k)

/-- Settles O55: the frame is sent whole, so DRAIN finds TXF empty and ends the command in time. -/
theorem healthyCommandSendsItsFrame : Obligations.HealthyCommandSendsItsFrame := by
  unfold Obligations.HealthyCommandSendsItsFrame
  intro k d₁ d₂ d₃ d₄ rest s hinv hidle hopen hx hdraw henv
  have hop : (accept (sendCommandWord k) s).opL = 0x3#4 := requestOp_sendCommandWord k
  have hframe : latchedFrame (accept (sendCommandWord k) s) = some (encodeCommand k) := by
    simp [latchedFrame, requestOp_sendCommandWord, requestArg_sendCommandWord]
  obtain ⟨t, hrun, ht⟩ := core_run_sendFrame (d₁ := d₁) (d₂ := d₂) (e := .seq d₄ :: rest) hinv hidle hopen hx hdraw
    (decodeRequest_sendCommandWord k) (startsExchange_sendCommandOf k) hframe (by simp [henv, sendCommandWord])
  obtain ⟨hn, hr⟩ := ht.seq_next (by decide)
  have hinit := ht.init_eq rfl
  have hbusy := ht.inv.busy_of_not_idle (by simp [ht.state_eq])
  obtain ⟨-, -, hlen⟩ := ht.inv.busy_clear hbusy
  have hend : step t = .next (finish true .noError (atSeq d₄ t)) := by
    rw [step_in_drain hn hr ht.state_eq (.inl ht.txf_eq), stepDrain_drained (s := atSeq d₄ t) hinit ht.txf_eq]
    exact congrArg Host.Outcome.next (afterDrain_command (s := atSeq d₄ t) (ht.opL_eq.trans hop))
  exact ⟨_, core_run_trans hrun (core_run_one hend), ht.wireTx_eq, ht.txf_eq, ht.rxf_eq, hlen, by simp [ht.env_eq], hinit, rfl, rfl, rfl,
    rfl, ht.txto_eq, rfl⟩

/-! ### The reply to a query (43_sequencer.md R144) -/

section

variable {a t : State} {wire txf rxf : List Byte} {e : List AgentStep} {d : Draw}

theorem Underway.drain_query (h : Underway a .drain wire [] rxf (.seq d :: e) t) (hop : a.opL = 0x4#4) :
    ∃ u, step t = .next u ∧ Underway a .flush wire [] rxf e u := by
  obtain ⟨hn, hr⟩ := h.seq_next (by decide)
  have hstep : step t = .next (goTo .flush (atSeq d t)) := by
    rw [step_in_drain hn hr h.state_eq (.inl h.txf_eq), stepDrain_drained (s := atSeq d t) (h.init_eq rfl) h.txf_eq]
    exact congrArg Host.Outcome.next (afterDrain_query (s := atSeq d t) (h.opL_eq.trans hop))
  exact ⟨_, hstep, { h with
    inv := everyStepKeepsTheInvariant _ _ h.inv hstep
    state_eq := rfl
    env_eq := by simp [h.env_eq] }⟩

theorem Underway.flush (h : Underway a .flush wire txf rxf (.seq d :: e) t) :
    ∃ u, step t = .next u ∧ Underway a .settle wire txf [] e u ∧
      u.tmr.toNat = a.cfgSettleMs.toNat * a.params.ticksPerMs := by
  obtain ⟨hn, hr⟩ := h.seq_next (by decide)
  have hstep : step t = .next { atSeq d t with rxf := [], tmr := ticksOf t.cfgSettleMs.toNat t, state := .settle } := by
    rw [step_in_flush hn hr h.state_eq]
    exact stepFlush_open (s := atSeq d t) h.inv.legal (h.init_eq rfl)
  have hticks : (ticksOf t.cfgSettleMs.toNat t).toNat = a.cfgSettleMs.toNat * a.params.ticksPerMs := by
    rw [settleTicks_toNat h.inv.legal, h.settle_eq, h.params_eq]
  exact ⟨_, hstep, { h with
    inv := everyStepKeepsTheInvariant _ _ h.inv hstep
    state_eq := rfl
    rxf_eq := rfl
    env_eq := by simp [h.env_eq] }, hticks⟩

/-- RD in a row queues the received bytes in order while there is room; TMR stays (42_transport.md R119). -/
theorem Underway.run_receive {bs : List Byte} (h : Underway a .settle wire txf rxf (bs.map .receive ++ e) t)
    (hroom : rxf.length + bs.length ≤ a.params.rxDepth) :
    ∃ u : State, Sys2Proof.core.run bs.length t = .next u ∧ Underway a .settle wire txf (rxf ++ bs) e u ∧ u.tmr = t.tmr := by
  induction bs generalizing t rxf with
  | nil => exact ⟨t, rfl, by simpa using h, rfl⟩
  | cons b bs ih =>
    rw [List.length_cons] at hroom
    have hnotFull : t.rxf.length < t.params.rxDepth := by
      rw [h.rxf_eq, h.params_eq]
      omega
    have hstep : step t = .next { advance t with rxf := t.rxf ++ [b] } := by
      rw [step_receive (nextAgentStep_of_env h.env_eq)]
      exact receiveStep_room (s := advance t) (h.init_eq rfl) h.inv.legal hnotFull b
    obtain ⟨u, hrun, hu, htmr⟩ := ih (t := { advance t with rxf := t.rxf ++ [b] }) (rxf := rxf ++ [b]) { h with
      inv := everyStepKeepsTheInvariant _ _ h.inv hstep
      rxf_eq := by simp [h.rxf_eq]
      env_eq := by simp [h.env_eq] } (by simp; omega)
    exact ⟨u, (core_run_succ hstep).trans hrun, by simpa using hu, htmr⟩

/-- As many ticks as TMR holds bring it to 0 (42_transport.md R120). -/
theorem Underway.run_tick {n : Nat} (h : Underway a .settle wire txf rxf (List.replicate n .tick ++ e) t) (ht : t.tmr.toNat = n) :
    ∃ u : State, Sys2Proof.core.run n t = .next u ∧ Underway a .settle wire txf rxf e u ∧ u.tmr = 0x00000000#32 := by
  induction n generalizing t with
  | zero => exact ⟨t, rfl, by simpa using h, BitVec.eq_of_toNat_eq ht⟩
  | succ n ih =>
    have hrunning : t.tmr ≠ 0x00000000#32 := fun h0 => by simp [h0] at ht
    have hless : (t.tmr - 0x00000001#32).toNat = n := by bv_omega
    have hstep : step t = .next { advance t with tmr := t.tmr - 0x00000001#32 } := by
      rw [step_tick (nextAgentStep_of_env h.env_eq)]
      exact congrArg _ (tickStep_running (s := advance t) hrunning)
    obtain ⟨u, hrun, hu, htmr⟩ := ih { h with
      inv := everyStepKeepsTheInvariant _ _ h.inv hstep
      env_eq := by simp [h.env_eq] } hless
    exact ⟨u, (core_run_succ hstep).trans hrun, hu, htmr⟩

theorem Underway.settle (h : Underway a .settle wire txf rxf (.seq d :: e) t) (ht : t.tmr = 0x00000000#32) :
    ∃ u, step t = .next u ∧ Underway a .read wire txf rxf e u := by
  obtain ⟨hn, hr⟩ := h.seq_next (by decide)
  have hstep : step t = .next { atSeq d t with tmr := ticksOf readTimeoutMs t, state := .read } := by
    rw [step_in_settle hn hr h.state_eq ht]
    exact stepSettle_legal (s := atSeq d t) h.inv.legal
  exact ⟨_, hstep, { h with
    inv := everyStepKeepsTheInvariant _ _ h.inv hstep
    state_eq := rfl
    env_eq := by simp [h.env_eq] }⟩

/-- From the end of a query's transmission to READ, with a reply that comes during the settle delay (43_sequencer.md R136 to R138). -/
theorem Underway.run_reply {reply : List Byte} {n : Nat} {d₄ d₅ d₆ : Draw}
    (h : Underway a .drain wire [] rxf
      (.seq d₄ :: .seq d₅ :: (reply.map .receive ++ (List.replicate n .tick ++ .seq d₆ :: e))) t)
    (hop : a.opL = 0x4#4) (hfits : reply.length ≤ 256) (hn : n = a.cfgSettleMs.toNat * a.params.ticksPerMs) :
    ∃ u : State, Sys2Proof.core.run (2 + (reply.length + (n + 1))) t = .next u ∧ Underway a .read wire [] reply e u := by
  have hroom : reply.length ≤ a.params.rxDepth := by
    obtain ⟨-, -, hdepth, -⟩ := (Params.legal_iff _).1 (h.params_eq ▸ h.inv.legal)
    omega
  obtain ⟨t₁, h₁, ht₁⟩ := h.drain_query hop
  obtain ⟨t₂, h₂, ht₂, hticks⟩ := ht₁.flush
  obtain ⟨t₃, h₃, ht₃, htmr⟩ := ht₂.run_receive (by simpa using hroom)
  obtain ⟨t₄, h₄, ht₄, hzero⟩ := ht₃.run_tick (by rw [htmr, hticks, hn])
  obtain ⟨t₅, h₅, ht₅⟩ := ht₄.settle hzero
  have hflushed : Sys2Proof.core.run 2 t = .next t₂ := by rw [core_run_succ h₁, core_run_one h₂]
  exact ⟨t₅, core_run_trans hflushed (core_run_trans h₃ (core_run_trans h₄ (core_run_one h₅))), ht₅⟩

end

/-- Settles O56: the query's frame is sent whole, the reply is queued behind an emptied RXF while S settles, and READ takes all of it. -/
theorem healthyQueryCapturesTheReply : Obligations.HealthyQueryCapturesTheReply := by
  unfold Obligations.HealthyQueryCapturesTheReply
  intro reply d₁ d₂ d₃ d₄ d₅ d₆ d₇ rest s hinv hidle hopen hx hdraw hread hne hfits henv
  obtain ⟨t, hsent, ht⟩ := core_run_sendFrame (v := 0x00000400#32) (i := .queryDevices) (f := encodeQuery) (d₁ := d₁) (d₂ := d₂)
    (e := .seq d₄ :: .seq d₅ :: (reply.map .receive ++
      (List.replicate (s.cfgSettleMs.toNat * s.params.ticksPerMs) .tick ++ .seq d₆ :: .seq d₇ :: rest)))
    hinv hidle hopen hx hdraw rfl rfl rfl (by simp [henv])
  obtain ⟨u, hreplied, hu⟩ := ht.run_reply rfl hfits rfl
  obtain ⟨hn, hr⟩ := hu.seq_next (by decide)
  have hinit := hu.init_eq rfl
  obtain ⟨m, hm, hend⟩ := step_takes hn hr (.inl hu.state_eq) hinit hread (hu.rxf_eq ▸ hne)
  have hcount : 18 + reply.length + s.cfgSettleMs.toNat * s.params.ticksPerMs =
      14 + (2 + (reply.length + (s.cfgSettleMs.toNat * s.params.ticksPerMs + 1)) + 1) := by omega
  have hlen : (captured m (atSeq d₇ u)).respLen.toNat = reply.length := by
    rw [captured_eq, finish_respLen, atSeq_rxf, hu.rxf_eq, min_eq_left hfits]
    exact Nat.mod_eq_of_lt (by omega)
  refine ⟨captured m (atSeq d₇ u), ?_, hu.wireTx_eq, hu.txf_eq, ?_, ?_, hlen, fun i hi => ?_, hinit, rfl, rfl, rfl, rfl, hu.txto_eq,
    rfl, rfl⟩
  · rw [hcount]
    exact core_run_trans hsent (core_run_trans hreplied (core_run_one hend))
  · simp [captured, dropReceived, hu.rxf_eq, hfits]
  · simp [captured, dropReceived, hu.env_eq]
  · have hcell := cellRead_captured hm i
    rw [hu.rxf_eq, min_eq_left hfits, if_pos hi] at hcell
    rw [memRead, if_pos (hlen ▸ hi)]
    exact hcell

end Sys2Proof.Machine

/-! No stop in a state of the block (60_exceptions.md R150, R156): an exception ends the request or sets a mark, and the machine goes on. -/

namespace Sys2Proof.Machine

/-- An enabled S has a pending request to take on; otherwise it waits (43_sequencer.md R142). -/
theorem seqStep_total {s : State} (h : Inv s) : ∃ t, seqStep s = .next t := by
  cases he : seqEnabled s with
  | true =>
    have hrun := h.running he
    obtain ⟨t, ht, -⟩ := seqBody_progress (h.pending hrun.busy hrun.not_refused)
    exact ⟨t, (seqStep_on he).trans ht⟩
  | false => exact ⟨s, seqStep_off he⟩

/-- Settles O43, by the agent that steps: S and RD alone can stop, S only outside the invariant and RD only with illegal parameters. -/
theorem everyStepOfABlockAnswersANextState : Obligations.EveryStepOfABlockAnswersANextState := by
  unfold Obligations.EveryStepOfABlockAnswersANextState
  intro s h
  unfold step
  cases nextAgentStep s with
  | seq d => exact seqStep_total (h.atSeq d)
  | lineTx => exact ⟨_, rfl⟩
  | receive b =>
    obtain ⟨t, ht, -⟩ := receiveStep_waits (s := advance s) h.legal b
    exact ⟨t, ht⟩
  | tick => exact ⟨_, rfl⟩
  | hostWrite n v => exact ⟨_, rfl⟩
  | hostRead n => exact ⟨_, rfl⟩
  | hostProgram => exact ⟨_, rfl⟩
  | resetInput => exact ⟨_, rfl⟩

end Sys2Proof.Machine

/-! The reset input and the block right after reset (70_reset_and_hazards.md R166 to R168). -/

namespace Sys2Proof.Machine

theorem step_resetInput {s : State} (h : nextAgentStep s = .resetInput) : step s = .next (blockReset (advance s)) := by
  simp only [step, agentStep, h]

/-- Settles O39: the reset input keeps nothing of the block, so what was in progress in `s` leaves no trace (R168). -/
theorem resetInputRestoresTheBlock : Obligations.ResetInputRestoresTheBlock := by
  unfold Obligations.ResetInputRestoresTheBlock
  intro s h
  exact step_resetInput h

/-- In IDLE no request is pending, and S waits (43_sequencer.md R142). -/
theorem seqEnabled_of_idle {s : State} (h : s.state = .idle) : seqEnabled s = false := by
  simp [seqEnabled, h]

/-- Settles O40, by the agent: S waits in IDLE, the session is closed to LT and RD, TMR is 0 for TK, and the reset input finds the reset
values. Only a step of S takes a draw. -/
theorem onlyTheHostStepsAfterReset : Obligations.OnlyTheHostStepsAfterReset := by
  unfold Obligations.OnlyTheHostStepsAfterReset
  intro d b env n a ha
  simp only [List.mem_cons, List.not_mem_nil, or_false] at ha
  have hn : nextAgentStep { State.reset with env := a :: env, eventNo := n } = a := nextAgentStep_of_env rfl
  rcases ha with rfl | rfl | rfl | rfl | rfl
  · exact ⟨d, step_of_not_seqEnabled hn (seqEnabled_of_idle rfl)⟩
  · exact ⟨State.reset.draw, (step_lineTx hn).trans (congrArg _ (lineTxStep_idle (.inl rfl)))⟩
  · exact ⟨State.reset.draw, (step_receive hn).trans (receiveStep_closed rfl b)⟩
  · exact ⟨State.reset.draw, (step_tick hn).trans (congrArg _ (tickStep_zero rfl))⟩
  · exact ⟨State.reset.draw, step_resetInput hn⟩

end Sys2Proof.Machine
